-- ==== Sys2Proof/Word.lean ====
section
/-! DEFINITION. The plain types of values that cross the TS816's bus or number its parts
(spec/00_scope.md, Terms and Conventions; spec/10_formats_and_layouts.md). Nothing here is more than a name. -/

namespace Sys2Proof

/-- One byte of the 8-bit host bus (spec/09, R173). -/
abbrev Byte := BitVec 8

/-- A window address on A0 to A5 (spec/09, R173). -/
abbrev Addr := BitVec 6

/-- The 32-bit count of milliseconds (spec/07, R156). -/
abbrev Uptime := BitVec 32

/-- A rail number, rail 0 to rail 15 (spec/00, Terms). -/
abbrev Rail := Fin 16

/-- A plan number, plan 0 to plan 7 (spec/04, R77). -/
abbrev PlanNo := Fin 8

/-- A step number, step 0 to step 15 (spec/04, R77). -/
abbrev StepNo := Fin 16

/-- A set of rails, one bit per rail: bit n stands for rail n, as RCHG0 and RCHG1 show it (spec/10, register map). -/
abbrev RailSet := BitVec 16

/-- A set of kinds as one byte: the kind of code k stands at bit k - 1 (spec/10, States, zones and kinds). -/
abbrev KindSet := BitVec 8

end Sys2Proof
end

