-- ==== Sys2Proof/Syntax.lean ====
section
/-! DEFINITION. The commands of the TS816: one constructor of `Instr` for each row of spec/opcode_table.json.
A row is a host bus cycle, an edge of a pin, an arrival from a monitor front end, the expiry of a timer, a reset, or
the millisecond tick. The operands of the eighteen host commands stand in ARG0 to ARG3 (spec/09, R176), so their
constructors carry none. -/

namespace Sys2Proof

/-- The four zones of a rail's voltage (spec/02, R28). -/
inductive Zone where
  | zero | low | good | high
  deriving DecidableEq, Repr, Inhabited

/-- The two external fault inputs (spec/02, R39). -/
inductive XfInput where
  | xf0 | xf1
  deriving DecidableEq, Repr, Inhabited

/-- The commands and events of the part, one per row of the table. -/
inductive Instr where
  /-- RAISE (R14): CMD written with 01h; ARG0 is the rail. -/
  | raise
  /-- LOWER (R15): CMD written with 02h; ARG0 is the rail. -/
  | lower
  /-- CLEAR (R16): CMD written with 03h; ARG0 is the rail. -/
  | clear
  /-- RAISE_GROUP (R68): CMD written with 04h; ARG0 tag, ARG1 mask. -/
  | raiseGroup
  /-- LOWER_GROUP (R70): CMD written with 05h; ARG0 tag, ARG1 mask. -/
  | lowerGroup
  /-- CLEAR_GROUP (R69): CMD written with 06h; ARG0 tag, ARG1 mask. -/
  | clearGroup
  /-- LOAD_RAIL (R5): CMD written with 08h; ARG0 is the rail. -/
  | loadRail
  /-- WRITE_RAIL (R6 to R8): CMD written with 09h; ARG0 is the rail. -/
  | writeRail
  /-- DEFINE (R83, R84): CMD written with 10h; ARG0 plan, ARG1 length, ARG2 unwind plan, ARG3 quiet interval. -/
  | define
  /-- COMMIT (R87 to R89): CMD written with 11h. -/
  | commit
  /-- ERASE (R90): CMD written with 12h; ARG0 is the plan. -/
  | erase
  /-- RUN (R127, R128): CMD written with 18h; ARG0 plan, ARG1 tag. -/
  | run
  /-- CANCEL (R129): CMD written with 19h; ARG0 is the plan. -/
  | cancel
  /-- RELEASE (R109): CMD written with 1Ah. -/
  | release
  /-- ABORT (R111): CMD written with 1Bh. -/
  | abort
  /-- LOG_POP (R154): CMD written with 20h. -/
  | logPop
  /-- SHED_ACK (R170): CMD written with 21h. -/
  | shedAck
  /-- ENGINE_RESET (R122): CMD written with 30h. -/
  | engineReset
  /-- BAD_COMMAND (R177): CMD written with a code that names no command. -/
  | badCommand (code : Byte)
  /-- EVT_WRITE (R162): a write cycle to EVT. -/
  | evtWrite (value : Byte)
  /-- EVEN_WRITE (R163): a write cycle to EVEN. -/
  | evenWrite (value : Byte)
  /-- RCHG_WRITE (R167): a write cycle to RCHG0 (`upper` false) or to RCHG1 (`upper` true). -/
  | rchgWrite (upper : Bool) (value : Byte)
  /-- ECFG_WRITE (R130, R188): a write cycle to ECFG. -/
  | ecfgWrite (value : Byte)
  /-- TSEL_WRITE (R179, R182): a write cycle to TSEL. -/
  | tselWrite (value : Byte)
  /-- TIDX_WRITE (R179, R182): a write cycle to TIDX. -/
  | tidxWrite (value : Byte)
  /-- TDATA_READ (R180 to R182): a read cycle of TDATA. -/
  | tdataRead
  /-- TDATA_WRITE (R183): a write cycle to TDATA. -/
  | tdataWrite (value : Byte)
  /-- UPT0_READ (R157): a read cycle of UPT0. -/
  | upt0Read
  /-- ENGST_LOW_READ (R175): a read cycle of the low byte of ENGST. -/
  | engstLowRead
  /-- REGISTER_WRITE (R174, R176, R179): a write cycle to a location with no behaviour of its own. -/
  | registerWrite (addr : Addr) (value : Byte)
  /-- POWER_ON_RESET (R186). -/
  | powerOnReset
  /-- RESET_ASSERTION (R2, R173, R186): RESET# goes to its asserted level. -/
  | resetAssertion
  /-- RESET_DEASSERTION (R186): RESET# goes to its deasserted level. -/
  | resetDeassertion
  /-- KILL_ASSERTION_EDGE (R72, R73). -/
  | killAssertionEdge
  /-- KILL_DEASSERTION_EDGE (R75). -/
  | killDeassertionEdge
  /-- XF_ASSERTION_EDGE (R39): an assertion edge of the named input. -/
  | xfAssertionEdge (input : XfInput)
  /-- XF_DEASSERTION_EDGE (R39): a deassertion edge of the named input. -/
  | xfDeassertionEdge (input : XfInput)
  /-- PWRREQ_FALLING_EDGE (R131, R132). -/
  | pwrreqFallingEdge
  /-- PWRREQ_RISING_EDGE (R131). -/
  | pwrreqRisingEdge
  /-- ZONE_ARRIVAL (R28): the front end of `rail` reports `zone`, its sensed voltage now being `mv` millivolts. -/
  | zoneArrival (rail : Rail) (zone : Zone) (mv : Nat)
  /-- OVER_CURRENT_ARRIVAL (R29): the front end of `rail` reports its flag at `asserted`, its sensed current now being
  `ma` milliamperes. -/
  | overCurrentArrival (rail : Rail) (asserted : Bool) (ma : Nat)
  /-- RAMP_EXPIRY (R19). -/
  | rampExpiry (rail : Rail)
  /-- SETTLE_EXPIRY (R19). -/
  | settleExpiry (rail : Rail)
  /-- DISCHARGE_EXPIRY (R24, R47, R48). -/
  | dischargeExpiry (rail : Rail)
  /-- BACKFEED_FILTER_EXPIRY (R27). -/
  | backfeedFilterExpiry (rail : Rail)
  /-- UV_FILTER_EXPIRY (R35). -/
  | uvFilterExpiry (rail : Rail)
  /-- OC_FILTER_EXPIRY (R36). -/
  | ocFilterExpiry (rail : Rail)
  /-- RETRY_EXPIRY (R51, R52). -/
  | retryExpiry (rail : Rail)
  /-- QUIET_EXPIRY (R99). -/
  | quietExpiry
  /-- STEP_TIMER_EXPIRY (R107). -/
  | stepTimerExpiry
  /-- HOLD_EXPIRY (R110). -/
  | holdExpiry
  /-- UPTIME_TICK (R156). -/
  | uptimeTick
  deriving DecidableEq, Repr

end Sys2Proof
end

