-- ==== Sys2Proof/WellFormed.lean ====
section
/-! DEFINITION. What makes a command well formed as a term: a code that names no command for BAD_COMMAND (spec/09, R177),
an address of a location with no behaviour of its own for REGISTER_WRITE (spec/09, R174), and a sensed value
within the sense ranges for the two arrivals (spec/09, Pins and Ratings). -/

namespace Sys2Proof

/-- The eighteen command codes (spec/10, Commands). -/
def commandCodes : List Byte :=
  [0x01, 0x02, 0x03, 0x04, 0x05, 0x06, 0x08, 0x09, 0x10, 0x11, 0x12, 0x18, 0x19, 0x1A, 0x1B, 0x20, 0x21, 0x30]

/-- The locations whose writes are rows of their own: EVT, EVEN, RCHG0, RCHG1, CMD, ECFG, TSEL, TIDX and TDATA
(spec/10, register map). -/
def ownRowAddresses : List Addr :=
  [0x02, 0x03, 0x04, 0x05, 0x08, 0x15, 0x18, 0x19, 0x1B]

/-- Well-formedness of a command, as a term. -/
def Instr.wf : Instr → Bool
  | .badCommand code => !commandCodes.contains code
  | .registerWrite addr _ => !ownRowAddresses.contains addr
  | .zoneArrival _ _ mv => decide (mv ≤ 20000)
  | .overCurrentArrival _ _ ma => decide (ma ≤ 25500)
  | _ => true

end Sys2Proof
end

