-- ==== Sys2Proof/Decode.lean ====
section
/-! DEFINITION. The command that a word spells by the table's bits. No row of spec/opcode_table.json gives any bits
(every row's field list is empty and none has a fixed pattern), so no word spells a command; bus cycles are read in
Machine/Window.lean, from the pins. -/

namespace Sys2Proof

/-- The command a word spells: none, since no row of the table has bits. -/
def decodeTableWord (_nbits _w : Nat) : Option Instr := none

end Sys2Proof
end

