-- ==== Sys2Proof/Config.lean ====
section
/-! DEFINITION. The free values: what the manual leaves open and the part goes on with. Each is a constant without a
body, applied to the plain counter `freeIndex` of the state, so that nothing can be proved of its value. -/

namespace Sys2Proof

/-- DESIGN CHOICE (log entry 3): which zone a monitor front end finds when the sensed voltage lies within the accuracy
band of a level, where "either report may be given" (spec/09, R187). Read only for a voltage within a band. -/
opaque Config.bandZone : Nat → Rail → Zone

/-- DESIGN CHOICE (log entry 3): which over-current flag a front end finds when the sensed current lies within the accuracy
band of the limit (spec/09, R187). Read only for a current within that band. -/
opaque Config.bandOverCurrent : Nat → Rail → Bool

/-- DESIGN CHOICE (log entry 4): the order in which one assertion edge of an external fault input is taken by the rails
bound to it; "the outcome depends on which arrival is taken first" (spec/02, R41). -/
opaque Config.edgeOrder : Nat → List Rail

end Sys2Proof
end

