-- ==== Sys2Proof/Machine/State.lean ====
section
/-! DEFINITION. The state of the TS816, block by block (spec/00, Block Overview), as plain data, and its value after
reset. Every field names the rule that gives it; INVENTORY.md lists them with their reset values. -/

namespace Sys2Proof.Machine

/-! ### Rail channels and monitor front ends (RC0 to RC15, MF0 to MF15) -/

/-- The seven rail states (R9). -/
inductive RailState where
  | unused | off | ramping | on | lowering | faulted | locked
  deriving DecidableEq, Repr

/-- The fault kinds of a rail (R31). -/
inductive FaultKind where
  | ov | uv | oc | ext | rampTimeout | dischargeTimeout | backfeed | cascade
  deriving DecidableEq, Repr

/-- The response field of a rail (R1, R32). -/
inductive Response where
  | report | latch | retry
  deriving DecidableEq, Repr

/-- The detection set of a rail: a subset of its five optional kinds (R1). -/
structure DetectSet where
  ov : Bool
  uv : Bool
  oc : Bool
  ext : Bool
  backfeed : Bool
  deriving DecidableEq, Repr

/-- The live configuration record of a rail (R1). Durations and levels are whole numbers in the field's own unit. -/
structure RailCfg where
  used : Bool
  shedMember : Bool
  pinMember : Bool
  /-- The group tag, read as four binary digits (R67). -/
  tag : BitVec 4
  parentA : Option Rail
  parentB : Option Rail
  /-- Lower bound of zone LOW, mV. -/
  offLevel : Nat
  /-- Lower bound of zone GOOD, mV. -/
  goodLevel : Nat
  /-- Upper bound of zone GOOD, mV. -/
  overLevel : Nat
  /-- Units of 100 mA. -/
  currentLimit : Nat
  /-- ms. -/
  rampLimit : Nat
  /-- ms. -/
  settleTime : Nat
  /-- Units of 10 ms. -/
  dischargeLimit : Nat
  /-- ms. -/
  filterTime : Nat
  detect : DetectSet
  binding : Option XfInput
  response : Response
  retryLimit : Nat
  /-- Units of 10 ms. -/
  retryInterval : Nat
  faultPlan : Option PlanNo
  deriving DecidableEq, Repr

/-- A running timer: the interval it was started with, in ms, and the uptime at its start. The uptime tells a timer that
was restarted from one that ran on (log entry 7). -/
structure Timer where
  interval : Nat
  startedAt : Uptime
  deriving DecidableEq, Repr

/-- For each level of a rail and for its current limit, whether the latest report that the front end gave across it was given within its
accuracy band, the value having rested in the band since. Such a report is not gone back on within the band (R187; log entry 25). -/
structure BandReports where
  offLevel : Bool
  goodLevel : Bool
  overLevel : Bool
  limit : Bool
  deriving DecidableEq, Repr

/-- One rail channel with its monitor front end: record, state, latched kinds, timers, arms and outputs of the channel,
the view of the front end, and the rail's two sense inputs. -/
structure RailChan where
  /-- The live configuration record (R1). -/
  cfg : RailCfg
  /-- The rail state (R9). -/
  state : RailState
  /-- The latched kinds, as a set byte (R11, spec/10). -/
  latched : KindSet
  /-- The first kind (R11). -/
  firstKind : Option FaultKind
  /-- The retry count, 0 to 7 (R11, R54). -/
  retries : Nat
  /-- The discharge phase of FAULTED and LOCKED (R45). -/
  discharging : Bool
  /-- The ramp timer (R17). -/
  rampT : Option Timer
  /-- The settle timer (R18). -/
  settleT : Option Timer
  /-- The discharge timer (R22, R45). -/
  dischargeT : Option Timer
  /-- The backfeed filter (R26). -/
  backfeedT : Option Timer
  /-- The UV filter (R35). -/
  uvT : Option Timer
  /-- The OC filter (R36). -/
  ocT : Option Timer
  /-- The retry timer (R50). -/
  retryT : Option Timer
  /-- The arms of the four own kinds (R33) and of the backfeed filter (R26). -/
  armOv : Bool
  armUv : Bool
  armOc : Bool
  armExt : Bool
  armBackfeed : Bool
  /-- The EN output, true when on (R9). -/
  en : Bool
  /-- The DIS output, true when on (R9). -/
  dis : Bool
  /-- The zone last reported by the front end (R11, R28). -/
  zone : Zone
  /-- The over-current flag last reported (R11, R29). -/
  overCurrent : Bool
  /-- Which of the latest reports were given within an accuracy band (R187). -/
  bands : BandReports
  /-- The voltage sense input VS, in mV (spec/09, Pins and Ratings; R8 item 5). -/
  senseMv : Nat
  /-- The current sense input IS, in mA of rail current (spec/09, Pins and Ratings; R8 item 5). -/
  senseMa : Nat
  deriving DecidableEq, Repr

/-! ### Plan store -/

/-- The plan states (R77). -/
inductive PlanState where
  | empty | defining | ready
  deriving DecidableEq, Repr

/-- A plan: its header and its step slot of 64 bytes (R77, R79). -/
structure Plan where
  state : PlanState
  length : Nat
  unwind : Option PlanNo
  /-- The quiet interval, ms. -/
  quiet : Nat
  slot : Vector Byte 64
  deriving DecidableEq, Repr

/-- The plan store: eight plans and the marker of the plan being defined (R77). -/
structure PlanStore where
  plans : Vector Plan 8
  defining : Option PlanNo
  deriving DecidableEq, Repr

/-! ### Sequence engine -/

/-- The kinds of step (R79). -/
inductive StepKind where
  | raise | lower | clear | awaitOn | awaitOff | pause | hold
  deriving DecidableEq, Repr

/-- A step as the engine reads it (R79); `kind` is none for a code that names no kind. -/
structure StepRec where
  kind : Option StepKind
  holdAfter : Bool
  group : Bool
  target : Byte
  time : Byte
  limit : Byte
  deriving DecidableEq, Repr

/-- The state of an engine that carries a run: QUIET, WAITING or HELD (R94). IDLE is an engine without a run. -/
inductive Phase where
  | quiet | waiting | held
  deriving DecidableEq, Repr

/-- The role of a run (R95). -/
inductive Role where
  | normal | urgent | unwind
  deriving DecidableEq, Repr

/-- The origin of a run or queue entry (R95, R126). -/
inductive Origin where
  | host | pin | fault
  deriving DecidableEq, Repr

/-- How a run ended (R112). -/
inductive RunOutcome where
  | done | failed | aborted | preempted | killed | reset
  deriving DecidableEq, Repr

/-- The reason of a last-run report (R113). -/
inductive Reason where
  | none | stepRefused | awaitImpossible | awaitTimeout | holdExpired
  deriving DecidableEq, Repr

/-- The result codes (spec/10, Result codes), without the value 0 that names none. -/
inductive Result where
  | accepted | already | partialResult | badCommand | badArgument | state
  | parentNotOn | childActive | backfeedPresent | killed | conditionPresent | notDischarged
  | invalidConfig | parentInUse | emptyGroup
  | queueFull | duplicate | planNotReady | planInUse | lengthMismatch | badStep
  | notHeld | notRunning | notFound | logEmpty | shedActive
  deriving DecidableEq, Repr

/-- The run in progress: the engine's state and its run context (R94, R95). -/
structure Run where
  phase : Phase
  plan : PlanNo
  role : Role
  origin : Origin
  tag : Option Byte
  step : StepNo
  selection : RailSet
  failedPlan : Option PlanNo
  failingStep : Option StepNo
  deriving DecidableEq, Repr

/-- The last-run report (R113). -/
structure Report where
  plan : PlanNo
  role : Role
  origin : Origin
  tag : Option Byte
  outcome : RunOutcome
  reason : Reason
  failingStep : Option StepNo
  refusal : Option Result
  deriving DecidableEq, Repr

/-- The sequence engine: the run it carries (none in IDLE), its three timers, and the last-run report (R94 to R96, R113). -/
structure Engine where
  run : Option Run
  quietT : Option Timer
  stepT : Option Timer
  holdT : Option Timer
  report : Option Report
  deriving DecidableEq, Repr

/-! ### Run request unit -/

/-- An entry of the run queue (R126). -/
structure QueueEntry where
  plan : PlanNo
  origin : Origin
  tag : Option Byte
  deriving DecidableEq, Repr

/-- A fault-plan request: the plan and the requesting rail (R133, R135). -/
structure PlanRequest where
  plan : PlanNo
  rail : Rail
  deriving DecidableEq, Repr

/-- The run request unit: queue (oldest first), urgent slot, and the two fields of ECFG (R126, R130, R133). -/
structure RequestUnit where
  queue : List QueueEntry
  slot : Option PlanRequest
  /-- ECFG's PWRREQ plan (R130). -/
  pwrPlan : Option PlanNo
  /-- ECFG's engine pin member (R130). -/
  enginePin : Bool
  deriving DecidableEq, Repr

/-! ### Fault log -/

/-- The engine record kinds of source 16 (R147). -/
inductive EngineKind where
  | stepFailed | unwindFailed | preempted | killed | planMissing | requestLost | urgentLost
  deriving DecidableEq, Repr

/-- What a record is about, fixed at its opening: the source, the first kind and the state context (R147, R148). A rail
record holds the rail's state at the declaration and perhaps a cause rail; an engine record holds a role. -/
inductive Subject where
  | rail (rail : Rail) (first : FaultKind) (state : RailState) (cause : Option Rail)
  | engine (first : EngineKind) (role : Role)
  deriving DecidableEq, Repr

/-- The plan context of a record: a plan, with a step that may be absent (R149). -/
structure PlanContext where
  plan : PlanNo
  step : Option StepNo
  deriving DecidableEq, Repr

/-- A record of the fault log (R147). -/
structure LogRecord where
  subject : Subject
  seen : KindSet
  repeats : Nat
  firstTime : Uptime
  lastTime : Uptime
  context : Option PlanContext
  deriving DecidableEq, Repr

/-- The fault log: records in order of opening, the uptime counter, and the FLT# output, true when asserted
(R146, R156, R158). -/
structure FaultLog where
  records : List LogRecord
  uptime : Uptime
  flt : Bool
  deriving DecidableEq, Repr

/-! ### Notification unit -/

/-- The notification unit: the flags as EVT shows them but for RAIL, which is a view and stays 0 here; the enables; the rail
change set; the SHED latch, which drives SHED#; and the INT# output, true when asserted (R161 to R169). -/
structure Notify where
  flags : Byte
  enables : Byte
  changed : RailSet
  shed : Bool
  int : Bool
  deriving DecidableEq, Repr

/-! ### Host bus interface -/

/-- The host bus interface (R174 to R186, R4, R85). `lastRead` is the model's own: what the latest read cycle that is a
command drove on D0 to D7 (log entry 9). -/
structure HostBus where
  cmd : Byte
  res : Byte
  rdet : Byte
  arg0 : Byte
  arg1 : Byte
  arg2 : Byte
  arg3 : Byte
  tsel : Byte
  tidx : Byte
  tptr : Byte
  /-- The uptime snapshot: the three higher bytes (R157). -/
  uptimeLatch : BitVec 24
  /-- The ENGST latch: the step index (R175). -/
  engstLatch : Byte
  /-- The staging buffer (R4). -/
  staging : Vector Byte 20
  /-- The copy buffer of the table port (R182). -/
  copy : List Byte
  /-- The write count of the DEFINING plan (R85). -/
  writeCount : Byte
  lastRead : Byte
  deriving DecidableEq, Repr

/-! ### Pins -/

/-- The levels of the input pins, true when asserted (R71, R39, R131, R173). Outside a reset each is the level the part has
taken, which PINST shows. -/
structure Pins where
  /-- RESET#. -/
  inReset : Bool
  kill : Bool
  xf0 : Bool
  xf1 : Bool
  pwrreq : Bool
  deriving DecidableEq, Repr

/-- The whole part, with the queue of commands that are waiting (first in, first out). -/
structure State where
  rails : Vector RailChan 16
  store : PlanStore
  engine : Engine
  requests : RequestUnit
  log : FaultLog
  notify : Notify
  bus : HostBus
  pins : Pins
  /-- The MODEL's own: which free value of Config is read next (log entry 3). -/
  freeIndex : Nat
  /-- The MODEL's own: the commands that are waiting, oldest first (log entry 1). -/
  pending : List Instr
  deriving DecidableEq, Repr

/-! ### Reasons to stop -/

/-- The faults of a step. There is none: the part has no event that stops it (its own faults are records and rail states, and the
part goes on), so no meaning raises one. Safe. -/
inductive Fault where
  deriving DecidableEq, Repr

/-- The refusals of a step. -/
inductive Refusal where
  /-- Raised by exec's arm of a command that has no meaning yet; no arm does. Safe. -/
  | notModelled (mnemonic : String)
  deriving DecidableEq, Repr

/-! ### Reset values -/

/-- The record of every rail after power-on and pin reset (R2). -/
def RailCfg.reset : RailCfg where
  used := false
  shedMember := false
  pinMember := true
  tag := 0
  parentA := none
  parentB := none
  offLevel := 300
  goodLevel := 3000
  overLevel := 3600
  currentLimit := 20
  rampLimit := 20
  settleTime := 5
  dischargeLimit := 20
  filterTime := 2
  detect := { ov := true, uv := true, oc := true, ext := false, backfeed := false }
  binding := none
  response := .latch
  retryLimit := 0
  retryInterval := 10
  faultPlan := none

/-- No report has been given within a band: the front end has delivered none since it compared afresh (R11, R187; log entry 25). -/
def BandReports.clear : BandReports where
  offLevel := false
  goodLevel := false
  overLevel := false
  limit := false

/-- A rail channel after reset (R2, R33), its front end holding the given view of the given sense inputs (R11). The backfeed
arm is a DESIGN CHOICE (log entry 10). -/
def RailChan.atReset (zone : Zone) (overCurrent : Bool) (mv ma : Nat) : RailChan where
  cfg := RailCfg.reset
  state := .unused
  latched := 0
  firstKind := none
  retries := 0
  discharging := false
  rampT := none
  settleT := none
  dischargeT := none
  backfeedT := none
  uvT := none
  ocT := none
  retryT := none
  armOv := true
  armUv := true
  armOc := true
  armExt := true
  armBackfeed := true
  en := false
  dis := false
  zone := zone
  overCurrent := overCurrent
  bands := BandReports.clear
  senseMv := mv
  senseMa := ma

/-- An EMPTY plan (R78). -/
def Plan.blank : Plan where
  state := .empty
  length := 0
  unwind := none
  quiet := 0
  slot := Vector.replicate 64 0

/-- The plan store after reset (R78). -/
def PlanStore.reset : PlanStore where
  plans := Vector.replicate 8 Plan.blank
  defining := none

/-- The engine after reset (R96). -/
def Engine.reset : Engine where
  run := none
  quietT := none
  stepT := none
  holdT := none
  report := none

/-- The run request unit after reset (R126, R130, R133). -/
def RequestUnit.reset : RequestUnit where
  queue := []
  slot := none
  pwrPlan := none
  enginePin := true

/-- The fault log after reset (R160). -/
def FaultLog.reset : FaultLog where
  records := []
  uptime := 0
  flt := false

/-- The notification unit while RESET# is asserted (R172): RESTART is set only at the end of the reset. -/
def Notify.held : Notify where
  flags := 0
  enables := 0x01
  changed := 0
  shed := false
  int := false

/-- The notification unit after a reset that ends with KILL# deasserted (R172): RESTART set and enabled, INT# asserted. -/
def Notify.reset : Notify where
  flags := 0x01
  enables := 0x01
  changed := 0
  shed := false
  int := true

/-- The bytes of an absent fault log record (spec/10, Fault log record). -/
def absentLogBytes : List Byte :=
  [0xFF, 0, 0, 0, 0, 0, 0, 0, 0, 0, 0, 0, 0, 0, 0, 0]

/-- The host bus interface after reset (R186). -/
def HostBus.reset : HostBus where
  cmd := 0
  res := 0
  rdet := 0
  arg0 := 0
  arg1 := 0
  arg2 := 0
  arg3 := 0
  tsel := 0
  tidx := 0
  tptr := 0
  uptimeLatch := 0
  engstLatch := 0
  staging := Vector.replicate 20 0
  copy := absentLogBytes
  writeCount := 0
  lastRead := 0

/-- The inputs at `State.reset`: every one deasserted, a DESIGN CHOICE (log entry 8). -/
def Pins.reset : Pins where
  inReset := false
  kill := false
  xf0 := false
  xf1 := false
  pwrreq := false

/-- The part right after a power-on reset that found every input deasserted and every sense input at zero (log entry 8). -/
def State.reset : State where
  rails := Vector.replicate 16 (RailChan.atReset .zero false 0 0)
  store := PlanStore.reset
  engine := Engine.reset
  requests := RequestUnit.reset
  log := FaultLog.reset
  notify := Notify.reset
  bus := HostBus.reset
  pins := Pins.reset
  freeIndex := 0
  pending := []

end Sys2Proof.Machine
end

