-- ==== Sys2Proof/Machine/Codes.lean ====
section
/-! DEFINITION. The numeric codes of all named values (spec/10, Numeric codes), and the byte helpers the layouts use. -/

namespace Sys2Proof.Machine

/-- A whole number as a byte (its low eight bits). -/
def byte (n : Nat) : Byte := BitVec.ofNat 8 n

/-- Byte `i` of a 32-bit value, byte 0 the lowest (spec/00, Tables and records: low byte first). -/
def byteOf (w : BitVec 32) (i : Nat) : Byte := w.extractLsb' (8 * i) 8

/-- A two-byte quantity, low byte first. -/
def pairNat (low high : Byte) : Nat := low.toNat + 256 * high.toNat

/-- Commands (spec/10). -/
inductive Command where
  | raise | lower | clear | raiseGroup | lowerGroup | clearGroup | loadRail | writeRail
  | define | commit | erase | run | cancel | release | abort | logPop | shedAck | engineReset
  deriving DecidableEq, Repr

/-- The code of each command (spec/10, Commands). -/
def Command.code : Command → Byte
  | .raise => 0x01 | .lower => 0x02 | .clear => 0x03
  | .raiseGroup => 0x04 | .lowerGroup => 0x05 | .clearGroup => 0x06
  | .loadRail => 0x08 | .writeRail => 0x09
  | .define => 0x10 | .commit => 0x11 | .erase => 0x12
  | .run => 0x18 | .cancel => 0x19 | .release => 0x1A | .abort => 0x1B
  | .logPop => 0x20 | .shedAck => 0x21 | .engineReset => 0x30

/-- The eighteen commands. -/
def allCommands : List Command :=
  [.raise, .lower, .clear, .raiseGroup, .lowerGroup, .clearGroup, .loadRail, .writeRail,
   .define, .commit, .erase, .run, .cancel, .release, .abort, .logPop, .shedAck, .engineReset]

/-- The command a CMD code names, or none (R177). -/
def commandOf (code : Byte) : Option Command := allCommands.find? (fun c => c.code == code)

/-- Result codes (spec/10). -/
def Result.code : Result → Byte
  | .accepted => 0x01 | .already => 0x02 | .partialResult => 0x03
  | .badCommand => 0x10 | .badArgument => 0x11 | .state => 0x12
  | .parentNotOn => 0x20 | .childActive => 0x21 | .backfeedPresent => 0x22 | .killed => 0x23
  | .conditionPresent => 0x24 | .notDischarged => 0x25
  | .invalidConfig => 0x28 | .parentInUse => 0x29 | .emptyGroup => 0x2A
  | .queueFull => 0x30 | .duplicate => 0x31 | .planNotReady => 0x32 | .planInUse => 0x33
  | .lengthMismatch => 0x34 | .badStep => 0x35
  | .notHeld => 0x38 | .notRunning => 0x39 | .notFound => 0x3A | .logEmpty => 0x3B | .shedActive => 0x3C

/-- A refusal is every result other than ACCEPTED and ALREADY, PARTIAL included (R161, R177). -/
def Result.isRefusal : Result → Bool
  | .accepted => false
  | .already => false
  | _ => true

/-- Rail state codes (spec/10). -/
def RailState.code : RailState → Byte
  | .unused => 0 | .off => 1 | .ramping => 2 | .on => 3 | .lowering => 4 | .faulted => 5 | .locked => 6

/-- Zone codes (spec/10). -/
def zoneCode : Zone → Byte
  | .zero => 0 | .low => 1 | .good => 2 | .high => 3

/-- Plan state codes (spec/10). -/
def PlanState.code : PlanState → Byte
  | .empty => 0 | .defining => 1 | .ready => 2

/-- Rail fault kind codes (spec/10). -/
def FaultKind.code : FaultKind → Nat
  | .ov => 1 | .uv => 2 | .oc => 3 | .ext => 4 | .rampTimeout => 5 | .dischargeTimeout => 6 | .backfeed => 7 | .cascade => 8

/-- Engine record kind codes (spec/10). -/
def EngineKind.code : EngineKind → Nat
  | .stepFailed => 1 | .unwindFailed => 2 | .preempted => 3 | .killed => 4 | .planMissing => 5 | .requestLost => 6
  | .urgentLost => 7

/-- The set byte that holds one kind alone: the kind of code k at bit k - 1 (spec/10). -/
def kindBit (code : Nat) : KindSet := BitVec.twoPow 8 (code - 1)

/-- Whether a set byte holds the kind of a code. -/
def hasKind (kinds : KindSet) (code : Nat) : Bool := kinds.getLsbD (code - 1)

/-- Role codes (spec/10). -/
def Role.code : Role → Byte
  | .normal => 1 | .urgent => 2 | .unwind => 3

/-- Origin codes (spec/10). -/
def Origin.code : Origin → Byte
  | .host => 1 | .pin => 2 | .fault => 3

/-- Outcome codes (spec/10). -/
def RunOutcome.code : RunOutcome → Byte
  | .done => 1 | .failed => 2 | .aborted => 3 | .preempted => 4 | .killed => 5 | .reset => 6

/-- Reason codes (spec/10). -/
def Reason.code : Reason → Byte
  | .none => 0 | .stepRefused => 1 | .awaitImpossible => 2 | .awaitTimeout => 3 | .holdExpired => 4

/-- Step kind of a four-bit code; 0 and 8 to 15 name none (spec/10). -/
def stepKindOf (code : BitVec 4) : Option StepKind :=
  match code.toNat with
  | 1 => some .raise
  | 2 => some .lower
  | 3 => some .clear
  | 4 => some .awaitOn
  | 5 => some .awaitOff
  | 6 => some .pause
  | 7 => some .hold
  | _ => none

/-- The tables of the table port (R179, spec/10). -/
inductive Table where
  | railCfg | staging | railStatus | planHdr | planSteps | log | queue | lastRun
  deriving DecidableEq, Repr

/-- The table TSEL selects; 0 and 9 to 255 select none (spec/10). -/
def tableOf (tsel : Byte) : Option Table :=
  match tsel.toNat with
  | 1 => some .railCfg
  | 2 => some .staging
  | 3 => some .railStatus
  | 4 => some .planHdr
  | 5 => some .planSteps
  | 6 => some .log
  | 7 => some .queue
  | 8 => some .lastRun
  | _ => none

/-- The tables that are read from a copy (R182). -/
def Table.copied : Table → Bool
  | .railStatus => true
  | .log => true
  | .queue => true
  | .lastRun => true
  | .railCfg => false
  | .staging => false
  | .planHdr => false
  | .planSteps => false

/-- The record length of each table, in bytes (R179). -/
def Table.recordLength : Table → Nat
  | .railCfg => 20
  | .staging => 20
  | .railStatus => 8
  | .planHdr => 8
  | .planSteps => 64
  | .log => 16
  | .queue => 4
  | .lastRun => 8

/-- The rail a byte names, when it is 0 to 15. -/
def railOf (b : Byte) : Option Rail := if h : b.toNat < 16 then some ⟨b.toNat, h⟩ else none

/-- The plan a byte names, when it is 0 to 7. -/
def planOf (b : Byte) : Option PlanNo := if h : b.toNat < 8 then some ⟨b.toNat, h⟩ else none

/-- A rail number as a byte. -/
def railByte (r : Rail) : Byte := byte r.val

/-- An optional number as a byte, FFh when absent (spec/10). -/
def absentFF {n : Nat} (x : Option (Fin n)) : Byte :=
  match x with
  | some v => byte v.val
  | none => 0xFF

end Sys2Proof.Machine
end

