-- ==== Sys2Proof/Machine/Layouts.lean ====
section
/-! DEFINITION. The byte layouts of the records (spec/10, Record layouts): the configuration record both ways, the step as the
engine reads it, and the records the part builds from the state it shows (R191). -/

namespace Sys2Proof.Machine

/-! ### Rail configuration record -/

/-- One bit as a byte value at a position. -/
def bitAt (b : Bool) (i : Nat) : Byte := if b then BitVec.twoPow 8 i else 0

/-- Byte 16, bits 0 to 1: the external binding (spec/10). -/
def bindingCode : Option XfInput → Byte
  | none => 0
  | some .xf0 => 1
  | some .xf1 => 2

/-- Byte 16, bits 4 to 5: the response (spec/10). -/
def responseCode : Response → Byte
  | .report => 0x00
  | .latch => 0x10
  | .retry => 0x20

/-- The 20 bytes of a live record (spec/10; R3, R5). -/
def encodeCfg (c : RailCfg) : Vector Byte 20 :=
  #v[bitAt c.used 0 ||| bitAt c.shedMember 1 ||| bitAt c.pinMember 2,
     c.tag.setWidth 8,
     absentFF c.parentA,
     absentFF c.parentB,
     byte c.offLevel, byte (c.offLevel / 256),
     byte c.goodLevel, byte (c.goodLevel / 256),
     byte c.overLevel, byte (c.overLevel / 256),
     byte c.currentLimit,
     byte c.rampLimit,
     byte c.settleTime,
     byte c.dischargeLimit,
     byte c.filterTime,
     bitAt c.detect.ov 0 ||| bitAt c.detect.uv 1 ||| bitAt c.detect.oc 2 ||| bitAt c.detect.ext 3
       ||| bitAt c.detect.backfeed 4,
     bindingCode c.binding ||| responseCode c.response,
     byte c.retryLimit,
     byte c.retryInterval,
     absentFF c.faultPlan]

/-- The external binding of byte 16 (spec/10); code 3 is refused by check 3 before it is read. -/
def bindingOf (b : Byte) : Option XfInput :=
  match (b &&& 0x03).toNat with
  | 1 => some .xf0
  | 2 => some .xf1
  | _ => none

/-- The response of byte 16 (spec/10); code 3 is refused by check 3 before it is read. -/
def responseOf (b : Byte) : Response :=
  match (b &&& 0x30).toNat with
  | 0x00 => .report
  | 0x10 => .latch
  | _ => .retry

/-- The record that 20 bytes hold (spec/10), for bytes that pass the checks of R7. -/
def decodeCfg (v : Vector Byte 20) : RailCfg where
  used := v[0].getLsbD 0
  shedMember := v[0].getLsbD 1
  pinMember := v[0].getLsbD 2
  tag := v[1].setWidth 4
  parentA := railOf v[2]
  parentB := railOf v[3]
  offLevel := pairNat v[4] v[5]
  goodLevel := pairNat v[6] v[7]
  overLevel := pairNat v[8] v[9]
  currentLimit := v[10].toNat
  rampLimit := v[11].toNat
  settleTime := v[12].toNat
  dischargeLimit := v[13].toNat
  filterTime := v[14].toNat
  detect := { ov := v[15].getLsbD 0, uv := v[15].getLsbD 1, oc := v[15].getLsbD 2, ext := v[15].getLsbD 3,
              backfeed := v[15].getLsbD 4 }
  binding := bindingOf v[16]
  response := responseOf v[16]
  retryLimit := v[17].toNat
  retryInterval := v[18].toNat
  faultPlan := planOf v[19]

/-- A level outside 1 to 20000 (R7 check 1). -/
def levelOutOfRange (n : Nat) : Bool := n == 0 || decide (20000 < n)

/-- Check 3 of R7, by the encodings of R189. -/
def fieldUndefined (v : Vector Byte 20) : Bool :=
  (v[0] &&& 0xF8) != 0
    || decide (15 < v[1].toNat)
    || (decide (15 < v[2].toNat) && v[2] != 0xFF)
    || (decide (15 < v[3].toNat) && v[3] != 0xFF)
    || v[10] == 0 || v[11] == 0 || v[13] == 0
    || decide (15 < v[14].toNat)
    || (v[15] &&& 0xE0) != 0
    || (v[16] &&& 0x03) == 0x03 || (v[16] &&& 0x30) == 0x30 || (v[16] &&& 0xCC) != 0
    || decide (7 < v[17].toNat)
    || v[18] == 0
    || (decide (7 < v[19].toNat) && v[19] != 0xFF)

/-! ### Steps and plan headers -/

/-- Byte `n` of a plan's step slot. -/
def Plan.slotByte (p : Plan) (n : Nat) : Byte := (p.slot[n]?).getD 0

/-- Step `i` of a plan, as the engine and COMMIT read it (spec/10, Step; R190). -/
def Plan.step (p : Plan) (i : Nat) : StepRec :=
  let b0 := p.slotByte (4 * i)
  { kind := stepKindOf (b0.setWidth 4)
    holdAfter := b0.getLsbD 7
    group := b0.getLsbD 6
    target := p.slotByte (4 * i + 1)
    time := p.slotByte (4 * i + 2)
    limit := p.slotByte (4 * i + 3) }

/-- The tag of a group target: bits 0 to 3 of the target byte (spec/10, Step). -/
def StepRec.tag (r : StepRec) : BitVec 4 := r.target.setWidth 4

/-- The mask of a group target: bits 4 to 7 of the target byte (spec/10, Step). -/
def StepRec.mask (r : StepRec) : BitVec 4 := r.target.extractLsb' 4 4

/-- The header record of a plan, with the write count it shows (spec/10, Plan header; R86). -/
def headerBytes (p : Plan) (writeCount : Byte) : List Byte :=
  [p.state.code, byte p.length, absentFF p.unwind, byte p.quiet,
   if p.state = .defining then writeCount else 0, 0, 0, 0]

/-! ### Status, log, queue and report records -/

/-- Backfeed present: OFF with a zone that is not ZERO (R11, R25). -/
def RailChan.backfeedPresent (c : RailChan) : Bool := c.state == .off && c.zone != .zero

/-- The rail status record (spec/10; R11). -/
def statusBytes (c : RailChan) : List Byte :=
  [c.state.code,
   zoneCode c.zone ||| bitAt c.overCurrent 2 ||| bitAt c.discharging 3 ||| bitAt c.backfeedPresent 4,
   c.latched,
   match c.firstKind with
     | some k => byte k.code
     | none => 0,
   byte c.retries, 0, 0, 0]

/-- The source of a record: 0 to 15 a rail, 16 the engine (R146). -/
def Subject.source : Subject → Nat
  | .rail r _ _ _ => r.val
  | .engine _ _ => 16

/-- Bytes 1, 12 and 13 of a record: first kind, state context, cause rail (spec/10). -/
def Subject.firstCode : Subject → Nat
  | .rail _ k _ _ => k.code
  | .engine k _ => k.code

/-- The state context byte: the rail's state, or the role (spec/10). -/
def Subject.stateByte : Subject → Byte
  | .rail _ _ st _ => st.code
  | .engine _ role => role.code

/-- The cause rail byte, FFh when absent and in every engine record (spec/10). -/
def Subject.causeByte : Subject → Byte
  | .rail _ _ _ cause => absentFF cause
  | .engine _ _ => 0xFF

/-- The two plan context bytes (spec/10). -/
def contextBytes : Option PlanContext → List Byte
  | none => [0xFF, 0xFF]
  | some c => [byte c.plan.val, absentFF c.step]

/-- The fault log record (spec/10). -/
def logBytes (r : LogRecord) : List Byte :=
  [byte r.subject.source, byte r.subject.firstCode, r.seen, byte r.repeats,
   byteOf r.firstTime 0, byteOf r.firstTime 1, byteOf r.firstTime 2, byteOf r.firstTime 3,
   byteOf r.lastTime 0, byteOf r.lastTime 1, byteOf r.lastTime 2, byteOf r.lastTime 3,
   r.subject.stateByte, r.subject.causeByte] ++ contextBytes r.context

/-- A tag byte: the tag when the origin is HOST, 0 otherwise (spec/10). -/
def tagByte (o : Origin) (tag : Option Byte) : Byte := if o = .host then tag.getD 0 else 0

/-- A queue entry (spec/10). -/
def queueBytes (e : QueueEntry) : List Byte := [byte e.plan.val, e.origin.code, tagByte e.origin e.tag, 0xFF]

/-- The urgent slot's request (spec/10): origin FAULT, no tag, the requesting rail. -/
def slotBytes (q : PlanRequest) : List Byte := [byte q.plan.val, Origin.fault.code, 0, railByte q.rail]

/-- An absent queue entry (spec/10). -/
def absentEntryBytes : List Byte := [0xFF, 0, 0, 0xFF]

/-- The last-run report (spec/10). -/
def reportBytes (r : Report) : List Byte :=
  [byte r.plan.val, r.role.code, r.origin.code, tagByte r.origin r.tag, r.outcome.code, r.reason.code,
   absentFF r.failingStep,
   match r.refusal with
     | some c => c.code
     | none => 0]

/-- An absent report (spec/10). -/
def absentReportBytes : List Byte := [0xFF, 0, 0, 0, 0, 0, 0xFF, 0]

end Sys2Proof.Machine
end

