-- ==== Sys2Proof/Machine/Ops.lean ====
section
/-! DEFINITION. The named operations over the blocks of the state: rails and sets of rails, plans, the run in progress,
timers, and the levels of the inputs. Every later file reads and writes the state through these. -/

namespace Sys2Proof.Machine

/-! ### Rails and sets of rails -/

/-- Rail 0 to rail 15, ascending. -/
def allRails : List Rail := List.finRange 16

/-- Whether a set holds a rail. -/
def RailSet.has (x : RailSet) (r : Rail) : Bool := x.getLsbD r.val

/-- A set with a rail added (R166: a set holds each rail at most once). -/
def RailSet.add (x : RailSet) (r : Rail) : RailSet := x ||| BitVec.twoPow 16 r.val

/-- The rails of a set, ascending. -/
def RailSet.rails (x : RailSet) : List Rail := allRails.filter (RailSet.has x)

/-- The set of a list of rails. -/
def RailSet.ofList (l : List Rail) : RailSet := l.foldl RailSet.add 0

/-- One rail channel of the part. -/
def State.rail (s : State) (r : Rail) : RailChan := s.rails[r.val]

/-- The part with one rail channel replaced. -/
def State.setRail (s : State) (r : Rail) (c : RailChan) : State := { s with rails := s.rails.set r.val c }

/-- A rail that is RAMPING or ON (R60). -/
def RailState.active : RailState → Bool
  | .ramping => true
  | .on => true
  | _ => false

/-- The present parents of a rail, parent A before parent B (R58). -/
def RailCfg.parents (c : RailCfg) : List Rail := c.parentA.toList ++ c.parentB.toList

/-- Whether a record names a rail as parent A or parent B (R15). -/
def RailCfg.names (c : RailCfg) (r : Rail) : Bool := c.parentA == some r || c.parentB == some r

/-- The lowest-numbered rail that passes a test. -/
def lowestRail (p : Rail → Bool) : Option Rail := allRails.find? p

/-! ### Plans -/

/-- One plan of the store. -/
def State.plan (s : State) (p : PlanNo) : Plan := s.store.plans[p.val]

/-- The part with one plan replaced. -/
def State.setPlan (s : State) (p : PlanNo) (x : Plan) : State :=
  { s with store := { s.store with plans := s.store.plans.set p.val x } }

/-- The part with the DEFINING marker set (R77). -/
def State.setDefining (s : State) (m : Option PlanNo) : State := { s with store := { s.store with defining := m } }

/-- Is plan p READY? (R91). -/
def State.ready (s : State) (p : PlanNo) : Bool := (s.plan p).state == .ready

/-- The write count set (R85). -/
def State.setWriteCount (s : State) (n : Byte) : State := { s with bus := { s.bus with writeCount := n } }

/-! ### Timers -/

/-- A timer started now with an interval in ms. -/
def startTimer (now : Uptime) (ms : Nat) : Option Timer := some { interval := ms, startedAt := now }

/-- The present uptime. -/
def State.now (s : State) : Uptime := s.log.uptime

/-! ### Input levels -/

/-- The level of an external fault input, true when asserted (R39). -/
def State.xf (s : State) (x : XfInput) : Bool :=
  match x with
  | .xf0 => s.pins.xf0
  | .xf1 => s.pins.xf1

/-- Whether the input that a rail is bound to is asserted; a rail bound to none has no such input (R16, R40). -/
def State.boundAsserted (s : State) (r : Rail) : Bool :=
  match (s.rail r).cfg.binding with
  | none => false
  | some x => s.xf x

/-- The level of an external fault input set (R39). -/
def State.setXf (s : State) (x : XfInput) (level : Bool) : State :=
  match x with
  | .xf0 => { s with pins := { s.pins with xf0 := level } }
  | .xf1 => { s with pins := { s.pins with xf1 := level } }

/-! ### The run in progress -/

/-- The part with the engine's run replaced. -/
def State.setRun (s : State) (x : Option Run) : State := { s with engine := { s.engine with run := x } }

/-- The engine is IDLE (R94). -/
def State.idle (s : State) : Bool := s.engine.run.isNone

/-- The engine's three timers, set together. -/
def State.setEngineTimers (s : State) (quiet step hold : Option Timer) : State :=
  { s with engine := { s.engine with quietT := quiet, stepT := step, holdT := hold } }

/-- The last-run report written (R113). -/
def State.setReport (s : State) (x : Report) : State := { s with engine := { s.engine with report := some x } }

/-! ### The run request unit -/

/-- The run queue set. -/
def State.setQueue (s : State) (q : List QueueEntry) : State := { s with requests := { s.requests with queue := q } }

/-- The urgent slot set. -/
def State.setSlot (s : State) (q : Option PlanRequest) : State := { s with requests := { s.requests with slot := q } }

end Sys2Proof.Machine
end

