-- ==== Sys2Proof/Machine/Flags.lean ====
section
/-! DEFINITION. The notification unit and the recomputed outputs: event flags and INT# (R161 to R165), the rail change set
(R166, R167), the SHED latch (R169), and FLT# (R158). -/

namespace Sys2Proof.Machine

/-- The seven flags that events set (R161). -/
inductive EventFlag where
  | restart | fault | done | fail | held | refused | kill
  deriving DecidableEq, Repr

/-- The EVT position of a flag (spec/10, Bit positions). -/
def EventFlag.position : EventFlag → Nat
  | .restart => 0 | .fault => 2 | .done => 3 | .fail => 4 | .held => 5 | .refused => 6 | .kill => 7

/-- EVT as it reads: the stored flags, and RAIL while the rail change set holds a rail (R161, R162). -/
def Notify.evt (n : Notify) : Byte := n.flags ||| (if n.changed = 0 then 0 else 0x02)

/-- INT# judged again: asserted exactly while some flag is set together with its enable (R164). -/
def Notify.judge (n : Notify) : Notify := { n with int := (n.evt &&& n.enables) != 0 }

/-- The notification unit replaced. -/
def State.setNotify (s : State) (n : Notify) : State := { s with notify := n }

/-- An event flag set, and INT# judged again (R161, R164). -/
def setFlag (f : EventFlag) (s : State) : State :=
  s.setNotify { s.notify with flags := s.notify.flags ||| BitVec.twoPow 8 f.position }.judge

/-- Whether a flag stands set. -/
def State.flag (s : State) (f : EventFlag) : Bool := s.notify.flags.getLsbD f.position

/-- A rail joins the rail change set, and INT# is judged again (R166, R164). -/
def addChanged (r : Rail) (s : State) : State :=
  s.setNotify { s.notify with changed := RailSet.add s.notify.changed r }.judge

/-- The SHED latch set; SHED# follows it (R169). -/
def setShed (s : State) : State := s.setNotify { s.notify with shed := true }

/-- Whether the source of a record is a pin member on the present configuration (R158). -/
def State.pinMember (s : State) (x : Subject) : Bool :=
  match x with
  | .rail r _ _ _ => (s.rail r).cfg.pinMember
  | .engine _ _ => s.requests.enginePin

/-- The level R158 gives FLT#: asserted exactly while the log holds a record whose source is a pin member. -/
def State.fltLevel (s : State) : Bool := s.log.records.any (fun x => s.pinMember x.subject)

/-- FLT# recomputed (R158). -/
def recomputeFlt (s : State) : State := { s with log := { s.log with flt := s.fltLevel } }

end Sys2Proof.Machine
end

