-- ==== Sys2Proof/Machine/FaultLog.lean ====
section
/-! DEFINITION. The fault log: opening and merging records (R146 to R152). -/

namespace Sys2Proof.Machine

/-- The plan context a rail record takes from the engine at its opening (R149). -/
def State.planContext (s : State) : Option PlanContext :=
  match s.engine.run with
  | none => none
  | some run =>
    match run.phase with
    | .quiet => some { plan := run.plan, step := none }
    | .waiting => some { plan := run.plan, step := some run.step }
    | .held => some { plan := run.plan, step := some run.step }

/-- Whether a record is of a source. -/
def LogRecord.from (x : LogRecord) (source : Nat) : Bool := x.subject.source == source

/-- A record with a fault merged into it: the kind joins the kinds seen, the count grows and saturates at 15, and the last time
is the present (R151). -/
def LogRecord.merge (x : LogRecord) (code : Nat) (now : Uptime) : LogRecord :=
  { x with seen := x.seen ||| kindBit code, repeats := min (x.repeats + 1) 15, lastTime := now }

/-- A record just opened (R150). -/
def LogRecord.opened (subject : Subject) (now : Uptime) (context : Option PlanContext) : LogRecord where
  subject := subject
  seen := kindBit subject.firstCode
  repeats := 1
  firstTime := now
  lastTime := now
  context := context

/-- The log's records replaced. -/
def State.setRecords (s : State) (l : List LogRecord) : State := { s with log := { s.log with records := l } }

/-- A fault reaches the log: it merges into the record of its source, or opens one at the tail; the FAULT flag is set, and
FLT# is recomputed at an opening (R150, R151). The first kind of `subject` is the kind of the fault. -/
def logFault (subject : Subject) (context : Option PlanContext) (s : State) : State :=
  if s.log.records.any (fun x => x.from subject.source) then
    setFlag .fault (s.setRecords (s.log.records.map
      (fun x => if x.from subject.source then x.merge subject.firstCode s.now else x)))
  else
    recomputeFlt (setFlag .fault (s.setRecords (s.log.records ++ [LogRecord.opened subject s.now context])))

/-- A declaration of a rail reaches the log, with the state the rail was in and the plan context of the engine (R44, R148,
R149). -/
def logRail (r : Rail) (kind : FaultKind) (st : RailState) (cause : Option Rail) (s : State) : State :=
  logFault (.rail r kind st cause) s.planContext s

/-- An engine record reaches the log, with the role and plan context its rule gives (R114, R138). -/
def logEngine (kind : EngineKind) (role : Role) (context : PlanContext) (s : State) : State :=
  logFault (.engine kind role) (some context) s

end Sys2Proof.Machine
end

