-- ==== Sys2Proof/Machine/Monitor.lean ====
section
/-! DEFINITION. The monitor front ends: zones and the over-current flag from the sensed values (R28, R29), with the accuracy of the
ratings (R187). -/

namespace Sys2Proof.Machine

/-- The zone of a voltage by the levels of a record (R28). -/
def zoneOf (c : RailCfg) (mv : Nat) : Zone :=
  if mv < c.offLevel then .zero
  else if mv < c.goodLevel then .low
  else if mv ≤ c.overLevel then .good
  else .high

/-- A hundred times the accuracy of a level comparison: 1 % of the level or 10 mV, whichever is larger (ratings table). -/
def levelBand (level : Nat) : Nat := max level 1000

/-- The voltage has passed above a level by more than the accuracy (R187). -/
def surelyAbove (level mv : Nat) : Bool := decide (100 * level + levelBand level < 100 * mv)

/-- The voltage has passed below a level by more than the accuracy (R187). -/
def surelyBelow (level mv : Nat) : Bool := decide (100 * mv + levelBand level < 100 * level)

/-- Whether a front end may report a zone for a voltage: no level has been passed the other way by more than the accuracy
(R28, R187; within a band "either report may be given"). -/
def zoneReportable (c : RailCfg) (z : Zone) (mv : Nat) : Bool :=
  match z with
  | .zero => !surelyAbove c.offLevel mv
  | .low => !surelyBelow c.offLevel mv && !surelyAbove c.goodLevel mv
  | .good => !surelyBelow c.goodLevel mv && !surelyAbove c.overLevel mv
  | .high => !surelyBelow c.overLevel mv

/-- Whether a voltage lies outside the band of every level, so that one zone alone may be reported. -/
def outsideBands (c : RailCfg) (mv : Nat) : Bool :=
  (surelyAbove c.offLevel mv || surelyBelow c.offLevel mv)
    && (surelyAbove c.goodLevel mv || surelyBelow c.goodLevel mv)
    && (surelyAbove c.overLevel mv || surelyBelow c.overLevel mv)

/-- The over-current flag of a current by the limit of a record (R29). -/
def overCurrentOf (c : RailCfg) (ma : Nat) : Bool := decide (100 * c.currentLimit < ma)

/-- Whether a front end may report a flag for a current, within 3 % of the limit (R29, R187). -/
def overCurrentReportable (c : RailCfg) (asserted : Bool) (ma : Nat) : Bool :=
  if asserted then decide (97 * (100 * c.currentLimit) ≤ 100 * ma)
  else decide (100 * ma ≤ 103 * (100 * c.currentLimit))

/-- A current lies within the accuracy band of the limit, so that either flag may be reported (R187). -/
def withinLimitBand (c : RailCfg) (ma : Nat) : Bool := overCurrentReportable c true ma && overCurrentReportable c false ma

/-- The zone a front end finds when it compares afresh (R8 item 5, R11): the zone of R28 outside the bands, and within a band a free
choice among the zones that may be reported (log entry 3). -/
def foundZone (free : Nat) (r : Rail) (c : RailCfg) (mv : Nat) : Zone :=
  if outsideBands c mv then zoneOf c mv
  else if zoneReportable c (Config.bandZone free r) mv then Config.bandZone free r
  else zoneOf c mv

/-- The over-current flag a front end finds when it compares afresh (R8 item 5, R11), free within the band (log entry 3). -/
def foundOverCurrent (free : Nat) (r : Rail) (c : RailCfg) (ma : Nat) : Bool :=
  if withinLimitBand c ma then Config.bandOverCurrent free r
  else overCurrentOf c ma

/-! ### Reports within a band -/

/-- The three levels that divide a rail's voltage into zones (R28). -/
inductive Level where
  | offLevel | goodLevel | overLevel
  deriving DecidableEq, Repr

/-- A level of a record, in mV (R1). -/
def RailCfg.level (c : RailCfg) : Level → Nat
  | .offLevel => c.offLevel
  | .goodLevel => c.goodLevel
  | .overLevel => c.overLevel

/-- A zone lies above a level (R28). -/
def zoneAbove (z : Zone) : Level → Bool
  | .offLevel => z != .zero
  | .goodLevel => z == .good || z == .high
  | .overLevel => z == .high

/-- Whether the latest report across a level was given within its band. -/
def BandReports.across (b : BandReports) : Level → Bool
  | .offLevel => b.offLevel
  | .goodLevel => b.goodLevel
  | .overLevel => b.overLevel

/-- A voltage lies within the accuracy band of a level, so that either side may be reported (R187). -/
def withinBand (level mv : Nat) : Bool := !surelyAbove level mv && !surelyBelow level mv

/-- Whether a report may go over to the other side of a level or limit: not when the latest report across it was given within the band and
the value has rested within the band since (R187). `same` says that the report stays on its side. -/
def mayCross (same latestWithin within : Bool) : Bool := same || !latestWithin || !within

/-- Whether the front end of a rail may report a zone for a voltage: no level has been passed the other way by more than the accuracy, and
no report within a band is gone back on within that band (R28, R187; log entry 25). -/
def RailChan.mayReportZone (c : RailChan) (z : Zone) (mv : Nat) : Bool :=
  let may (l : Level) : Bool := mayCross (zoneAbove c.zone l == zoneAbove z l) (c.bands.across l) (withinBand (c.cfg.level l) mv)
  zoneReportable c.cfg z mv && may .offLevel && may .goodLevel && may .overLevel

/-- Whether the front end of a rail may report a flag for a current (R29, R187; log entry 25). -/
def RailChan.mayReportFlag (c : RailChan) (asserted : Bool) (ma : Nat) : Bool :=
  overCurrentReportable c.cfg asserted ma && mayCross (c.overCurrent == asserted) c.bands.limit (withinLimitBand c.cfg ma)

/-- A report that crosses a level or limit is remembered as given within the band or not; once the value lies beyond the band there is nothing
to remember (R187). -/
def noteCross (same latestWithin within : Bool) : Bool := within && (!same || latestWithin)

/-- The front end remembers, for each level that a report of a zone crosses, whether the present voltage lies within its band, and forgets it
for a level whose band the voltage has left (R187). -/
def RailChan.noteZone (c : RailChan) (z : Zone) : RailChan :=
  let note (l : Level) : Bool := noteCross (zoneAbove c.zone l == zoneAbove z l) (c.bands.across l) (withinBand (c.cfg.level l) c.senseMv)
  { c with bands := { c.bands with offLevel := note .offLevel, goodLevel := note .goodLevel, overLevel := note .overLevel } }

/-- The front end remembers whether a report of another flag is given with the present current within the band (R187). -/
def RailChan.noteFlag (c : RailChan) (asserted : Bool) : RailChan :=
  { c with bands :=
      { c.bands with limit := noteCross (c.overCurrent == asserted) c.bands.limit (withinLimitBand c.cfg c.senseMa) } }

end Sys2Proof.Machine
end

