-- ==== Sys2Proof/Machine/RailChannel.lean ====
section
/-! DEFINITION. One rail channel by itself: its entries into states, its timers and filters, the declaration of faults, and
what it does on each arrival, edge, expiry and retry (R9 to R27, R31 to R56). A `RailStep` is a rail channel in the midst of an event,
with what it must hand to its neighbours. -/

namespace Sys2Proof.Machine

/-- A declaration that reaches the fault log: the kind and the state the rail was in (R44). -/
structure Decl where
  kind : FaultKind
  state : RailState
  deriving DecidableEq, Repr

/-- A rail channel in the midst of an event. -/
structure RailStep where
  /-- The channel. -/
  rc : RailChan
  /-- Its state has changed in this event (R10). -/
  moved : Bool
  /-- What it has declared, in order (R44). -/
  decls : List Decl
  /-- It has entered FAULTED or LOCKED (R169). -/
  entered : Bool
  /-- It has done so from RAMPING or ON by a fault of its own (R43, R135). -/
  ownCut : Bool
  deriving DecidableEq, Repr

/-- A channel at the start of an event. -/
def RailStep.of (c : RailChan) : RailStep := { rc := c, moved := false, decls := [], entered := false, ownCut := false }

/-- The channel replaced. -/
def RailStep.withRc (e : RailStep) (c : RailChan) : RailStep := { e with rc := c }

/-- The rail has changed state. -/
def RailStep.move (e : RailStep) (c : RailChan) : RailStep := { e with rc := c, moved := true }

/-- A declaration, in the rail's present state. -/
def RailStep.declare (e : RailStep) (k : FaultKind) : RailStep := { e with decls := e.decls ++ [⟨k, e.rc.state⟩] }

/-! ### Pieces of an entry -/

/-- The timers of RAMPING and ON cancelled: ramp, settle, UV filter, OC filter (R20, R21, R37, R43). -/
def cancelActiveTimers (c : RailChan) : RailChan := { c with rampT := none, settleT := none, uvT := none, ocT := none }

/-- Every timer of the rail cancelled (R8 item 3). -/
def cancelAllTimers (c : RailChan) : RailChan :=
  { cancelActiveTimers c with dischargeT := none, backfeedT := none, retryT := none }

/-- The four own kinds armed (R33). -/
def armAll (c : RailChan) : RailChan := { c with armOv := true, armUv := true, armOc := true, armExt := true }

/-- A kind joins the latched kinds, and is the first kind when they were empty (R24, R43, R47, R48, R63). -/
def latch (k : FaultKind) (c : RailChan) : RailChan :=
  { c with latched := c.latched ||| kindBit k.code
           firstKind := if c.latched = 0 then some k else c.firstKind }

/-- A FAULTED rail starts its retry timer at the end of its discharge phase (R50). -/
def startRetry (now : Uptime) (c : RailChan) : RailChan :=
  if c.state = .faulted then { c with retryT := startTimer now (10 * c.cfg.retryInterval) } else c

/-- The discharge phase ends: DIS off, discharge timer cancelled, and a FAULTED rail starts its retry timer (R46, R50). -/
def endDischarge (now : Uptime) (c : RailChan) : RailChan :=
  startRetry now { c with discharging := false, dis := false, dischargeT := none }

/-- A discharge phase begins with a fresh discharge timer (R45, R53). -/
def beginDischarge (now : Uptime) (c : RailChan) : RailChan :=
  { c with discharging := true, dis := true, dischargeT := startTimer now (10 * c.cfg.dischargeLimit) }

/-- The entry into FAULTED or LOCKED from RAMPING or ON: EN off, timers cancelled, and the discharge phase, which ends at once when
the zone is ZERO (R43 item 1, R45, R63 item 1). -/
def cutTo (now : Uptime) (st : RailState) (c : RailChan) : RailChan :=
  let c1 := { cancelActiveTimers c with en := false, state := st }
  if c1.zone = .zero then endDischarge now c1 else beginDischarge now c1

/-! ### Declarations -/

/-- A kind disarmed by its declaration under REPORT (R33). -/
def disarm (k : FaultKind) (c : RailChan) : RailChan :=
  match k with
  | .ov => { c with armOv := false }
  | .uv => { c with armUv := false }
  | .oc => { c with armOc := false }
  | .ext => { c with armExt := false }
  | _ => c

/-- The state a fault of the rail's own leads to, when it does not keep its state (R32). -/
def cutState (c : RailChan) : RailState :=
  if c.cfg.response = .retry ∧ c.retries < c.cfg.retryLimit then .faulted else .locked

/-- A fault of the rail's own, answered by the response (R32, R33, R43 items 1 and 2). -/
def declareOwn (now : Uptime) (k : FaultKind) (e : RailStep) : RailStep :=
  if e.rc.cfg.response = .report ∧ k ≠ .rampTimeout then
    (e.declare k).withRc (disarm k e.rc)
  else
    { (e.declare k).move (latch k (cutTo now (cutState e.rc) e.rc)) with entered := true, ownCut := true }

/-- BACKFEED: recorded, the rail stays OFF, and the filter is disarmed (R27). -/
def declareBackfeed (e : RailStep) : RailStep :=
  (e.declare .backfeed).withRc { e.rc with backfeedT := none, armBackfeed := false }

/-! ### Filters -/

/-- The UV filter started, in ON, when UV is in the set, armed and not running; with filter time 0 its start is the declaration
(R31, R35). -/
def startUv (now : Uptime) (e : RailStep) : RailStep :=
  if e.rc.cfg.detect.uv ∧ e.rc.armUv ∧ e.rc.uvT = none then
    if e.rc.cfg.filterTime = 0 then declareOwn now .uv e
    else e.withRc { e.rc with uvT := startTimer now e.rc.cfg.filterTime }
  else e

/-- The OC filter started, in RAMPING or ON, when OC is in the set, armed and not running (R31, R36). -/
def startOc (now : Uptime) (e : RailStep) : RailStep :=
  if e.rc.cfg.detect.oc ∧ e.rc.armOc ∧ e.rc.ocT = none then
    if e.rc.cfg.filterTime = 0 then declareOwn now .oc e
    else e.withRc { e.rc with ocT := startTimer now e.rc.cfg.filterTime }
  else e

/-- The backfeed filter started, in OFF, when BACKFEED is in the set and the filter is armed and not running (R26). -/
def startBackfeed (now : Uptime) (e : RailStep) : RailStep :=
  if e.rc.cfg.detect.backfeed ∧ e.rc.armBackfeed ∧ e.rc.backfeedT = none then
    if e.rc.cfg.filterTime = 0 then declareBackfeed e
    else e.withRc { e.rc with backfeedT := startTimer now e.rc.cfg.filterTime }
  else e

/-- EXT declared when it is in the set and armed (R39). -/
def declareExt (now : Uptime) (e : RailStep) : RailStep :=
  if e.rc.cfg.detect.ext ∧ e.rc.armExt then declareOwn now .ext e else e

/-- OV declared when it is in the set and armed (R34). -/
def declareOv (now : Uptime) (e : RailStep) : RailStep :=
  if e.rc.cfg.detect.ov ∧ e.rc.armOv then declareOwn now .ov e else e

/-! ### Entries -/

/-- The present zone judged in OFF: a zone that is not ZERO starts the armed backfeed filter (R26). -/
def judgeOff (now : Uptime) (e : RailStep) : RailStep :=
  if e.rc.zone = .zero then e else startBackfeed now e

/-- The channel in OFF with its timers stopped, its outputs off and the backfeed filter armed (R9, R16, R22, R26). -/
def offChannel (c : RailChan) : RailChan :=
  { cancelAllTimers c with state := .off, en := false, dis := false, discharging := false, armBackfeed := true }

/-- The entry into OFF (R22, R23, R26). -/
def enterOff (now : Uptime) (e : RailStep) : RailStep := judgeOff now (e.move (offChannel e.rc))

/-- The entry into ON: ramp and settle timers cancelled, EN kept on; the OC filter runs on (R20, R36). -/
def enterOn (e : RailStep) : RailStep :=
  e.move { e.rc with state := .on, rampT := none, settleT := none, en := true, dis := false }

/-- The entry into LOWERING: EN off, DIS on, discharge timer started, and OFF at once when the zone is ZERO (R22). -/
def enterLowering (now : Uptime) (e : RailStep) : RailStep :=
  let c := { cancelActiveTimers e.rc with
               state := .lowering, en := false, dis := true, dischargeT := startTimer now (10 * e.rc.cfg.dischargeLimit) }
  if c.zone = .zero then enterOff now (e.move c) else e.move c

/-! ### Zone arrivals, by state -/

/-- OV armed again at a zone of ZERO, LOW or GOOD; UV at a zone of GOOD or HIGH (R33). -/
def rearmByZone (c : RailChan) : RailChan :=
  { c with armOv := c.armOv || c.zone != .high
           armUv := c.armUv || c.zone == .good || c.zone == .high }

/-- The zone judged in RAMPING (R18, R34). -/
def judgeRamping (now : Uptime) (e : RailStep) : RailStep :=
  match e.rc.zone with
  | .good =>
    if e.rc.cfg.settleTime = 0 then enterOn e
    else e.withRc { e.rc with settleT := startTimer now e.rc.cfg.settleTime }
  | .high => declareOv now (e.withRc { e.rc with settleT := none })
  | .low => e.withRc { e.rc with settleT := none }
  | .zero => e.withRc { e.rc with settleT := none }

/-- The zone judged in ON (R34, R35). -/
def judgeOn (now : Uptime) (e : RailStep) : RailStep :=
  match e.rc.zone with
  | .good => e.withRc { e.rc with uvT := none }
  | .high => declareOv now (e.withRc { e.rc with uvT := none })
  | .low => startUv now e
  | .zero => startUv now e

/-- The zone judged in LOWERING (R23). -/
def judgeLowering (now : Uptime) (e : RailStep) : RailStep :=
  if e.rc.zone = .zero then enterOff now e else e

/-- The zone judged in FAULTED or LOCKED: the end of the discharge phase at ZERO (R46), and in FAULTED a new phase when voltage
returns while the retry timer runs (R53). -/
def judgeCut (now : Uptime) (e : RailStep) : RailStep :=
  if e.rc.discharging then
    if e.rc.zone = .zero then e.withRc (endDischarge now e.rc) else e
  else if e.rc.state = .faulted ∧ e.rc.retryT ≠ none ∧ e.rc.zone ≠ .zero then
    e.withRc (beginDischarge now { e.rc with retryT := none })
  else e

/-- A zone arrival in OFF: at ZERO the filter is cancelled and armed, else it is started (R26). -/
def arriveOff (now : Uptime) (e : RailStep) : RailStep :=
  if e.rc.zone = .zero then e.withRc { e.rc with backfeedT := none, armBackfeed := true } else startBackfeed now e

/-- A zone arrival judged by the rail's state, the channel already holding the new zone (R12, R18, R23, R26, R34, R35, R46, R53,
R56). -/
def railZoneArrival (now : Uptime) (e : RailStep) : RailStep :=
  match e.rc.state with
  | .unused => e
  | .off => arriveOff now e
  | .ramping => judgeRamping now (e.withRc (rearmByZone e.rc))
  | .on => judgeOn now (e.withRc (rearmByZone e.rc))
  | .lowering => judgeLowering now e
  | .faulted => judgeCut now e
  | .locked => judgeCut now e

/-! ### Over-current arrivals and edges of the bound input -/

/-- An over-current arrival judged by the rail's state, the channel already holding the new flag (R36). -/
def railOverCurrent (now : Uptime) (e : RailStep) : RailStep :=
  if e.rc.state.active then
    if e.rc.overCurrent then startOc now e
    else e.withRc { e.rc with ocT := none, armOc := true }
  else e

/-- An assertion edge of the bound input (R39). -/
def railXfAssert (now : Uptime) (e : RailStep) : RailStep :=
  if e.rc.state.active then declareExt now e else e

/-- A deassertion edge of the bound input (R39). -/
def railXfDeassert (c : RailChan) : RailChan :=
  if c.state.active then { c with armExt := true } else c

/-! ### Entry into RAMPING -/

/-- The entry into RAMPING: EN on, DIS off, ramp timer started, all kinds armed (R17, R33). -/
def rampingChannel (now : Uptime) (c : RailChan) : RailChan :=
  { armAll (cancelAllTimers c) with
      state := .ramping, en := true, dis := false, discharging := false, rampT := startTimer now c.cfg.rampLimit }

/-- The present over-current flag judged at the entry (R40). -/
def judgeFlagAtEntry (now : Uptime) (e : RailStep) : RailStep :=
  if e.rc.state.active ∧ e.rc.overCurrent then startOc now e else e

/-- The present level of the bound input judged at the entry (R40). -/
def judgeInputAtEntry (now : Uptime) (xf : Bool) (e : RailStep) : RailStep :=
  if e.rc.state.active ∧ xf then declareExt now e else e

/-- The entry into RAMPING, and the judgement of the present zone, flag and bound input, in this order (R17, R40; the order is
log entry 15). -/
def enterRamping (now : Uptime) (xf : Bool) (e : RailStep) : RailStep :=
  judgeInputAtEntry now xf (judgeFlagAtEntry now (judgeRamping now (e.move (rampingChannel now e.rc))))

/-! ### Accepted single-rail commands -/

/-- An accepted RAISE: retry count 0, and the entry into RAMPING (R14). -/
def railRaise (now : Uptime) (xf : Bool) (e : RailStep) : RailStep :=
  enterRamping now xf (e.withRc { e.rc with retries := 0 })

/-- An accepted CLEAR: latched kinds emptied, timers cancelled, DIS off, and OFF; the retry count is kept (R16). -/
def railClear (now : Uptime) (e : RailStep) : RailStep :=
  enterOff now (e.withRc { e.rc with latched := 0, firstKind := none })

/-! ### Expiries -/

/-- Ramp expiry (R19). -/
def railRampExpiry (now : Uptime) (e : RailStep) : RailStep :=
  if e.rc.state = .ramping ∧ e.rc.rampT ≠ none then declareOwn now .rampTimeout (e.withRc { e.rc with rampT := none }) else e

/-- Settle expiry (R19, R20). -/
def railSettleExpiry (e : RailStep) : RailStep :=
  if e.rc.state = .ramping ∧ e.rc.settleT ≠ none then enterOn e else e

/-- UV filter expiry (R35). -/
def railUvExpiry (now : Uptime) (e : RailStep) : RailStep :=
  if e.rc.state = .on ∧ e.rc.uvT ≠ none then declareOwn now .uv (e.withRc { e.rc with uvT := none }) else e

/-- OC filter expiry (R36). -/
def railOcExpiry (now : Uptime) (e : RailStep) : RailStep :=
  if e.rc.state.active ∧ e.rc.ocT ≠ none then declareOwn now .oc (e.withRc { e.rc with ocT := none }) else e

/-- Backfeed filter expiry (R27). -/
def railBackfeedExpiry (e : RailStep) : RailStep :=
  if e.rc.state = .off ∧ e.rc.backfeedT ≠ none then declareBackfeed e else e

/-- The channel after a DISCHARGE_TIMEOUT: DIS off, phase ended, kind latched, LOCKED (R24, R47, R48). -/
def dischargedOut (c : RailChan) : RailChan :=
  latch .dischargeTimeout { c with dis := false, discharging := false, dischargeT := none, state := .locked }

/-- Discharge expiry: LOWERING and FAULTED go LOCKED, LOCKED stays (R24, R47, R48). -/
def railDischargeExpiry (e : RailStep) : RailStep :=
  if e.rc.dischargeT = none then e
  else
    match e.rc.state with
    | .lowering => { (e.declare .dischargeTimeout).move (dischargedOut e.rc) with entered := true }
    | .faulted => { (e.declare .dischargeTimeout).move (dischargedOut e.rc) with entered := true }
    | .locked => (e.declare .dischargeTimeout).withRc (dischargedOut e.rc)
    | _ => e

/-- Retry expiry, with the answer of the parents-ON question and the level of KILL#: a retry, or a deferral by one full interval
(R51, R52). -/
def railRetryExpiry (now : Uptime) (xf parentsOn kill : Bool) (e : RailStep) : RailStep :=
  if e.rc.state = .faulted ∧ e.rc.retryT ≠ none then
    if parentsOn ∧ kill = false then
      enterRamping now xf (e.withRc { e.rc with retries := e.rc.retries + 1, latched := 0, firstKind := none })
    else e.withRc (startRetry now e.rc)
  else e

/-! ### KILL# -/

/-- What an assertion edge of KILL# does to a rail (R72). -/
def railKill (now : Uptime) (e : RailStep) : RailStep :=
  match e.rc.state with
  | .ramping => enterLowering now e
  | .on => enterLowering now e
  | .faulted => { e.move { e.rc with state := .locked, retryT := none } with entered := true }
  | _ => e

/-! ### WRITE_RAIL -/

/-- Items 1 to 4 of R8, and the arms of R33 and R26: a filter is armed at the entry into OFF; for a rail that stays OFF item 6 arms it. -/
def writtenChannel (cfg : RailCfg) (c : RailChan) : RailChan :=
  { armAll (cancelAllTimers c) with
      cfg := cfg
      retries := 0
      latched := 0
      firstKind := none
      state := if cfg.used then .off else .unused
      en := false
      dis := false
      discharging := false
      bands := BandReports.clear
      armBackfeed := c.armBackfeed || c.state == .unused }

/-- Item 5 of R8: the front end takes the zone and flag it finds, and a zone that differs is judged as an arrival. An over-current
arrival has no effect in OFF and UNUSED (R36). -/
def comparedAfresh (now : Uptime) (zone : Zone) (oc : Bool) (e : RailStep) : RailStep :=
  if e.rc.zone = zone then e.withRc { e.rc with overCurrent := oc }
  else railZoneArrival now (e.withRc { e.rc with zone := zone, overCurrent := oc })

/-- The comparison of item 5 of R8 with what the front end remembers of it: an arrival within a band of the new record is remembered as such, a
comparison without one leaves nothing to remember (R187; log entry 25). -/
def writtenArrival (now : Uptime) (zone : Zone) (oc : Bool) (e : RailStep) : RailStep :=
  comparedAfresh now zone oc (e.withRc ((e.rc.noteZone zone).noteFlag oc))

/-- Item 6 of R8: the filter is armed and the present zone judged, unless the arrival has started the filter or declared BACKFEED
already. -/
def writtenJudge (now : Uptime) (e : RailStep) : RailStep :=
  if e.rc.state = .off ∧ e.rc.backfeedT = none ∧ e.decls = [] then
    judgeOff now (e.withRc { e.rc with armBackfeed := true })
  else e

/-- An accepted WRITE_RAIL on its rail, items 1 to 7 of R8, with the view that the front end finds. -/
def railWrite (now : Uptime) (cfg : RailCfg) (zone : Zone) (oc : Bool) (e : RailStep) : RailStep :=
  let e1 := writtenJudge now (writtenArrival now zone oc (e.withRc (writtenChannel cfg e.rc)))
  { e1 with moved := e1.rc.state != e.rc.state }

end Sys2Proof.Machine
end

