-- ==== Sys2Proof/Machine/Network.lean ====
section
/-! DEFINITION. The dependency network (R58 to R66), group selection (R67), and what a rail event hands on: a `Delta` is the part in
the midst of an event, with the rail changes, fault-plan requests and SHED latch that are still to be handed on (R10, R65). -/

namespace Sys2Proof.Machine

/-! ### Questions -/

/-- The parents-ON question: the lowest-numbered present parent that is not ON, or none (R59). -/
def State.parentNotOn (s : State) (r : Rail) : Option Rail :=
  lowestRail (fun p => (s.rail r).cfg.parents.contains p && (s.rail p).state != .on)

/-- The active-child question, over the rails that pass a test: the lowest-numbered active child, or none (R60, R70). -/
def State.activeChild (s : State) (r : Rail) (among : Rail → Bool) : Option Rail :=
  lowestRail (fun x => among x && (s.rail x).cfg.names r && (s.rail x).state.active)

/-- The lowest-numbered rail that is not UNUSED and names a rail as its parent (R6 check 4). -/
def State.usedChild (s : State) (r : Rail) : Option Rail :=
  lowestRail (fun x => (s.rail x).cfg.names r && (s.rail x).state != .unused)

/-- The rails a group target selects, ascending: not UNUSED, and the tag agrees where the mask is 1 (R67). -/
def State.selected (s : State) (tag mask : BitVec 4) : List Rail :=
  allRails.filter (fun r => (s.rail r).state != .unused && ((s.rail r).cfg.tag &&& mask) == (tag &&& mask))

/-! ### Cascade -/

/-- The descendants of a rail: every rail one of whose parents is the rail or a descendant, found in ascending order, since a
parent's number is below its child's (R58, R62). -/
def State.descendants (s : State) (r : Rail) : RailSet :=
  allRails.foldl
    (fun d x => if (s.rail x).cfg.parents.any (fun p => p == r || RailSet.has d p) then RailSet.add d x else d) 0

/-- The rails the cascade from a rail takes: its descendants that are RAMPING or ON (R62, R64). -/
def State.taken (s : State) (r : Rail) : RailSet :=
  RailSet.ofList (allRails.filter (fun x => RailSet.has (s.descendants r) x && (s.rail x).state.active))

/-- The cause rail of a rail taken: the lowest-numbered of its parents that is the originating rail or is taken (R62). -/
def State.causeRail (s : State) (origin : Rail) (taken : RailSet) (x : Rail) : Option Rail :=
  lowestRail (fun p => (s.rail x).cfg.parents.contains p && (p == origin || RailSet.has taken p))

/-- One rail taken by a cascade: LOCKED with CASCADE latched, and its record (R63). -/
def cascadeOne (cause : Option Rail) (x : Rail) (s : State) : State :=
  logRail x .cascade (s.rail x).state cause (s.setRail x (latch .cascade (cutTo s.now .locked (s.rail x))))

/-- The rails taken, in ascending rail number, each with its cause rail (R62, R63, R65). -/
def cascadeAll (origin : Rail) (taken : RailSet) (s : State) : State :=
  (RailSet.rails taken).foldl (fun t x => cascadeOne (s.causeRail origin taken x) x t) s

/-! ### What an event hands on -/

/-- The part in the midst of an event. -/
structure Delta where
  s : State
  /-- The rails whose state has changed, to be handed on in ascending number (R10, R65). -/
  changed : RailSet
  /-- The fault-plan requests raised, ascending by rail (R135, R136). -/
  reqs : List PlanRequest
  /-- A shed member has entered FAULTED or LOCKED (R169). -/
  shed : Bool
  deriving DecidableEq, Repr

/-- The start of an event. -/
def Delta.of (s : State) : Delta := { s := s, changed := 0, reqs := [], shed := false }

/-- A request put among those waiting to be judged, in ascending number of the requesting rail (R136; log entry 13). -/
def insertRequest (q : PlanRequest) : List PlanRequest → List PlanRequest
  | [] => [q]
  | x :: l => if q.rail < x.rail then q :: x :: l else x :: insertRequest q l

/-- The records of a rail's declarations, in order (R44). -/
def logDecls (r : Rail) (l : List Decl) (s : State) : State :=
  l.foldl (fun t d => logRail r d.kind d.state none t) s

/-- The request a rail hands on when it was cut by its own fault and names a fault plan (R43 item 5, R135). -/
def ownRequest (r : Rail) (e : RailStep) : List PlanRequest :=
  if e.ownCut then
    match e.rc.cfg.faultPlan with
    | some p => [{ plan := p, rail := r }]
    | none => []
  else []

/-- What a rail event does to the part: the channel, its records, the cascade of an own cut, and what remains to be handed on
(R43, R62 to R65). -/
def commit (r : Rail) (e : RailStep) (d : Delta) : Delta :=
  let s1 := logDecls r e.decls (d.s.setRail r e.rc)
  let taken := if e.ownCut then s1.taken r else 0
  let s2 := cascadeAll r taken s1
  { s := s2
    changed := (if e.moved then RailSet.add d.changed r else d.changed) ||| taken
    reqs := (ownRequest r e).foldl (fun l q => insertRequest q l) d.reqs
    shed := d.shed || (e.entered && e.rc.cfg.shedMember) || (RailSet.rails taken).any (fun x => (s1.rail x).cfg.shedMember) }

/-- A rail event: a transition of one channel, and what it does to the part. -/
def onRail (r : Rail) (f : RailStep → RailStep) (d : Delta) : Delta :=
  commit r (f (RailStep.of (d.s.rail r))) d

end Sys2Proof.Machine
end

