-- ==== Sys2Proof/Machine/Operands.lean ====
section
/-! DEFINITION. The operand forms and the judgements of the rail commands: verdicts (R177), the single-rail judgements (R14 to R16),
the group judgements (R67 to R70), and the commands themselves over a rail or a group target, as the host and the plan steps issue them
(R13, R101). -/

namespace Sys2Proof.Machine

/-- A command's result: the code for RES and the detail for RDET (R177). -/
structure Verdict where
  code : Result
  detail : Byte
  deriving DecidableEq, Repr

/-- A result with detail 0 (R13). -/
def Verdict.plain (r : Result) : Verdict := { code := r, detail := 0 }

/-- A rail number in an operand: 0 to 15 (R13). -/
def railOperand (b : Byte) : Option Rail := railOf b

/-- A plan number in an operand: 0 to 7 (R83, R90, R127, R129). -/
def planOperand (b : Byte) : Option PlanNo := planOf b

/-- A group target in two operands: a tag and a mask, each 0 to 15 (R67). -/
def groupOperand (tag mask : Byte) : Option (BitVec 4 × BitVec 4) :=
  if tag.toNat < 16 ∧ mask.toNat < 16 then some (tag.setWidth 4, mask.setWidth 4) else none

/-! ### Single-rail judgements -/

/-- RAISE judged (R14). -/
def judgeRaise (s : State) (r : Rail) : Verdict :=
  match (s.rail r).state with
  | .off =>
    match s.parentNotOn r with
    | some p => { code := .parentNotOn, detail := railByte p }
    | none =>
      if (s.rail r).zone ≠ .zero then .plain .backfeedPresent
      else if s.pins.kill then .plain .killed
      else .plain .accepted
  | .ramping => .plain .already
  | .on => .plain .already
  | _ => .plain .state

/-- LOWER judged (R15). -/
def judgeLower (s : State) (r : Rail) : Verdict :=
  match (s.rail r).state with
  | .ramping | .on =>
    match s.activeChild r (fun _ => true) with
    | some x => { code := .childActive, detail := railByte x }
    | none => .plain .accepted
  | .off => .plain .already
  | .lowering => .plain .already
  | _ => .plain .state

/-- Whether a latched condition of a kind is still present (R16). -/
def conditionPresent (s : State) (r : Rail) (k : FaultKind) : Bool :=
  hasKind (s.rail r).latched k.code &&
    (match k with
      | .ov => (s.rail r).zone == .high
      | .oc => (s.rail r).overCurrent
      | .ext => s.boundAsserted r
      | _ => false)

/-- The first present condition, in the order OV, OC, EXT (R16). -/
def firstCondition (s : State) (r : Rail) : Option FaultKind :=
  [FaultKind.ov, .oc, .ext].find? (conditionPresent s r)

/-- CLEAR judged (R16). -/
def judgeClear (s : State) (r : Rail) : Verdict :=
  match (s.rail r).state with
  | .faulted | .locked =>
    match firstCondition s r with
    | some k => { code := .conditionPresent, detail := byte k.code }
    | none => if (s.rail r).zone ≠ .zero then .plain .notDischarged else .plain .accepted
  | .off => .plain .already
  | _ => .plain .state

/-! ### Single-rail commands -/

/-- The rail raised (R14, R17, R40). -/
def doRaise (r : Rail) (d : Delta) : Delta := onRail r (railRaise d.s.now (d.s.boundAsserted r)) d

/-- The rail lowered (R15, R22). -/
def doLower (r : Rail) (d : Delta) : Delta := onRail r (enterLowering d.s.now) d

/-- The rail cleared (R16). -/
def doClear (r : Rail) (d : Delta) : Delta := onRail r (railClear d.s.now) d

/-- A single-rail command: judged, and carried out when accepted (R13). -/
def railCommand (judge : State → Rail → Verdict) (act : Rail → Delta → Delta) (r : Rail) (s : State) : Verdict × Delta :=
  let v := judge s r
  (v, if v.code = .accepted then act r (Delta.of s) else Delta.of s)

/-! ### Group commands -/

/-- The result of RAISE_GROUP and CLEAR_GROUP over the selected rails (R68's table, R69). -/
def groupVerdict (verdicts : List (Rail × Verdict)) : Verdict :=
  let accepted := verdicts.filter (fun x => x.2.code == .accepted)
  let refused := verdicts.filter (fun x => x.2.code.isRefusal)
  match refused with
  | [] => { code := .accepted, detail := byte accepted.length }
  | x :: _ =>
    if accepted.length ≠ 0 then { code := .partialResult, detail := byte refused.length }
    else { code := x.2.code, detail := railByte x.1 }

/-- RAISE_GROUP and CLEAR_GROUP: every selected rail is judged on the states when the command was taken, and those that pass are
changed in ascending number (R67, R68, R69). -/
def groupEach (judge : State → Rail → Verdict) (act : Rail → Delta → Delta) (tag mask : BitVec 4) (s : State) : Verdict × Delta :=
  match s.selected tag mask with
  | [] => (.plain .emptyGroup, Delta.of s)
  | sel =>
    (groupVerdict (sel.map (fun r => (r, judge s r))),
     (sel.filter (fun r => (judge s r).code == .accepted)).foldl (fun d r => act r d) (Delta.of s))

/-- The lowest-numbered blocking child among all the selected rails: RAMPING or ON, not itself selected, and a child of a selected
rail in RAMPING or ON (R70 item 1). -/
def blockingChild (s : State) (sel : List Rail) : Option Rail :=
  lowestRail (fun x => !sel.contains x && (s.rail x).state.active
    && sel.any (fun r => (s.rail r).state.active && (s.rail x).cfg.names r))

/-- LOWER_GROUP: all or nothing (R70). -/
def groupLower (tag mask : BitVec 4) (s : State) : Verdict × Delta :=
  match s.selected tag mask with
  | [] => (.plain .emptyGroup, Delta.of s)
  | sel =>
    match blockingChild s sel with
    | some x => ({ code := .childActive, detail := railByte x }, Delta.of s)
    | none =>
      match sel.filter (fun r => (s.rail r).state.active) with
      | [] => (.plain .already, Delta.of s)
      | low => ({ code := .accepted, detail := byte low.length }, low.foldl (fun d r => doLower r d) (Delta.of s))

/-! ### The commands by their operands -/

/-- A single-rail command with its rail in an operand (R13). -/
def railCommandOf (judge : State → Rail → Verdict) (act : Rail → Delta → Delta) (b : Byte) (s : State) : Verdict × Delta :=
  match railOperand b with
  | none => (.plain .badArgument, Delta.of s)
  | some r => railCommand judge act r s

/-- A group command with its target in two operands (R67). -/
def groupCommandOf (run : BitVec 4 → BitVec 4 → State → Verdict × Delta) (tag mask : Byte) (s : State) : Verdict × Delta :=
  match groupOperand tag mask with
  | none => (.plain .badArgument, Delta.of s)
  | some (t, m) => run t m s

/-- The command that an issuing step issues (R101): a single-rail command, or a group command when the group flag is set. -/
def issue (kind : StepKind) (st : StepRec) (s : State) : Verdict × Delta :=
  match kind with
  | .raise => if st.group then groupEach judgeRaise doRaise st.tag st.mask s else railCommandOf judgeRaise doRaise st.target s
  | .lower => if st.group then groupLower st.tag st.mask s else railCommandOf judgeLower doLower st.target s
  | .clear => if st.group then groupEach judgeClear doClear st.tag st.mask s else railCommandOf judgeClear doClear st.target s
  | _ => (.plain .accepted, Delta.of s)

end Sys2Proof.Machine
end

