-- ==== Sys2Proof/Machine/Engine.lean ====
section
/-! DEFINITION. The sequence engine: steps and chains of steps, holds, the end of a run, the failure policy and the choice of the
next run (R94 to R121), and the fault-plan requests that follow an event (R119, R135, R136). A `Work` is the part in the midst of an event
of the engine, with the fault-plan requests that wait until the chain has ended (R103, R135). -/

namespace Sys2Proof.Machine

/-- The part while the engine acts, and the requests that wait. -/
structure Work where
  s : State
  reqs : List PlanRequest
  deriving DecidableEq, Repr

/-- The state replaced, the waiting requests kept. -/
def Work.on (w : Work) (f : State → State) : Work := { w with s := f w.s }

/-! ### The run in progress -/

/-- The run changed, when there is one. -/
def mapRun (f : Run → Run) (s : State) : State := s.setRun (s.engine.run.map f)

/-- The record of step `i` of the run in progress (R91, R100). -/
def State.stepRec (s : State) (run : Run) (i : Nat) : StepRec := (s.plan run.plan).step i

/-- The selection of an AWAIT step judged done, failed or waiting (R105, R106). -/
inductive Judgement where
  | done | failed | waiting
  deriving DecidableEq, Repr

/-- AWAIT_ON over its selection (R105). -/
def judgeAwaitOn (s : State) (sel : RailSet) : Judgement :=
  let l := RailSet.rails sel
  if l.all (fun r => (s.rail r).state == .on) then .done
  else if l.any (fun r => !(s.rail r).state.active) then .failed
  else .waiting

/-- A rail that AWAIT_OFF counts as off: OFF, FAULTED or LOCKED (R106). -/
def RailState.countsOff : RailState → Bool
  | .off => true
  | .faulted => true
  | .locked => true
  | _ => false

/-- AWAIT_OFF over its selection (R106). -/
def judgeAwaitOff (s : State) (sel : RailSet) : Judgement :=
  let l := RailSet.rails sel
  if l.all (fun r => (s.rail r).state.countsOff) then .done
  else if l.any (fun r => (s.rail r).state.active || (s.rail r).state == .unused) then .failed
  else .waiting

/-- The judgement of a step of an AWAIT kind; the other kinds wait on no rail. -/
def judgeAwait (kind : StepKind) (s : State) (sel : RailSet) : Judgement :=
  match kind with
  | .awaitOn => judgeAwaitOn s sel
  | .awaitOff => judgeAwaitOff s sel
  | _ => .waiting

/-- The kinds that wait on rails. -/
def StepKind.awaits : StepKind → Bool
  | .awaitOn => true
  | .awaitOff => true
  | _ => false

/-- The selection an AWAIT step makes: the target rail in whatever state, or the rails the group target selects (R104). -/
def stepSelection (s : State) (st : StepRec) : RailSet :=
  if st.group then RailSet.ofList (s.selected st.tag st.mask)
  else
    match railOperand st.target with
    | some r => RailSet.add 0 r
    | none => 0

/-! ### Steps -/

/-- How a chain of steps stopped: it rests at an AWAIT, a PAUSE or a hold; or its run must end, done or failed (R100, R102). -/
inductive ChainEnd where
  | rest
  | done
  | failed (reason : Reason) (refusal : Option Result)
  deriving DecidableEq, Repr

/-- The start of step `i`: the step index set, and WAITING entered (R100). -/
def beginStep (i : Nat) (s : State) : State :=
  mapRun (fun run => { run with phase := .waiting, step := Fin.ofNat 16 i }) s

/-- The step timer started (R104, R107). -/
def startStepTimer (ms : Nat) (s : State) : State :=
  s.setEngineTimers s.engine.quietT (startTimer s.now ms) s.engine.holdT

/-- The step timer cancelled and the selection emptied, at the end of an AWAIT or PAUSE (R95, R104). -/
def endWait (s : State) : State :=
  mapRun (fun run => { run with selection := 0 }) (s.setEngineTimers s.engine.quietT none s.engine.holdT)

/-- The entry into HELD: the hold timer started unless the hold is unlimited, and the HELD flag set (R108). -/
def enterHeld (units : Nat) (s : State) : State :=
  setFlag .held (mapRun (fun run => { run with phase := .held })
    (s.setEngineTimers s.engine.quietT s.engine.stepT (if units = 0 then none else startTimer s.now (100 * units))))

/-- The selection of the run in progress set (R104). -/
def setSelection (sel : RailSet) (s : State) : State := mapRun (fun run => { run with selection := sel }) s

/-- What an issued command hands on while the engine carries out an issuing step: the rails join the change set and the latch is
set, the engine does not judge the changes, and the requests wait (R97, R103, R135). -/
def absorb (d : Delta) (w : Work) : Work :=
  let s1 := (RailSet.rails d.changed).foldl (fun t r => addChanged r t) d.s
  { s := if d.shed then setShed s1 else s1
    reqs := d.reqs.foldl (fun l q => insertRequest q l) w.reqs }

/-- How one step ended in the event of its start: it completed, the run rests at it, or it failed (R100, R102). -/
inductive StepEnd where
  | completed
  | rest
  | failed (reason : Reason) (refusal : Option Result)
  deriving DecidableEq, Repr

/-- An issuing step: its command issued, and the step completed or failed (R101). -/
def issueStep (kind : StepKind) (st : StepRec) (w : Work) : Work × StepEnd :=
  let (v, d) := issue kind st w.s
  (absorb d w, if v.code.isRefusal then .failed .stepRefused (some v.code) else .completed)

/-- The start of an AWAIT step: selection, step timer, and the rails judged (R104). -/
def startAwait (kind : StepKind) (st : StepRec) (w : Work) : Work × StepEnd :=
  let sel := stepSelection w.s st
  if st.group ∧ sel = 0 then (w, .failed .stepRefused (some .emptyGroup))
  else
    let w1 := w.on (fun s => startStepTimer (10 * st.time.toNat) (setSelection sel s))
    match judgeAwait kind w1.s sel with
    | .done => (w1.on endWait, .completed)
    | .failed => (w1.on endWait, .failed .awaitImpossible none)
    | .waiting => (w1, .rest)

/-- What a step does at its start, by its kind (R100's table); a code of no kind, which COMMIT lets into no READY plan, rests (log entry 19). -/
def startStep (st : StepRec) (w : Work) : Work × StepEnd :=
  match st.kind with
  | none => (w, .rest)
  | some .raise => issueStep .raise st w
  | some .lower => issueStep .lower st w
  | some .clear => issueStep .clear st w
  | some .awaitOn => startAwait .awaitOn st w
  | some .awaitOff => startAwait .awaitOff st w
  | some .pause => (w.on (startStepTimer (10 * st.time.toNat)), .rest)
  | some .hold => (w.on (enterHeld st.time.toNat), .rest)

/-- What follows the start of a step: at completion a hold, when the hold-after flag is set, or what comes next (R102). -/
def afterStep (st : StepRec) (x : Work × StepEnd) (next : Work → Work × ChainEnd) : Work × ChainEnd :=
  match x with
  | (w, .rest) => (w, .rest)
  | (w, .failed reason refusal) => (w, .failed reason refusal)
  | (w, .completed) => if st.holdAfter then (w.on (enterHeld st.limit.toNat), .rest) else next w

/-- A chain of steps from step `i`, with `k` steps remaining, that one included (R100 to R108). -/
def runSteps : Nat → Nat → Work → Work × ChainEnd
  | 0, _, w => (w, .done)
  | k + 1, i, w =>
    let w0 := w.on (beginStep i)
    match w0.s.engine.run with
    | none => (w0, .rest)
    | some run => afterStep (w0.s.stepRec run i) (startStep (w0.s.stepRec run i) w0) (runSteps k (i + 1))

/-! ### Starting and ending a run -/

/-- What a run is started with (R98). -/
structure RunSpec where
  plan : PlanNo
  role : Role
  origin : Origin
  tag : Option Byte
  failedPlan : Option PlanNo
  failingStep : Option StepNo
  deriving DecidableEq, Repr

/-- The run context filled, with step index 0 and nothing selected (R95, R98). -/
def RunSpec.context (x : RunSpec) (phase : Phase) : Run where
  phase := phase
  plan := x.plan
  role := x.role
  origin := x.origin
  tag := x.tag
  step := 0
  selection := 0
  failedPlan := x.failedPlan
  failingStep := x.failingStep

/-- A run started: a NORMAL run enters QUIET with its quiet timer, or starts step 0 at once when the interval is 0; the other roles
start step 0 at once (R98). -/
def startRun (x : RunSpec) (w : Work) : Work × ChainEnd :=
  let p := w.s.plan x.plan
  if x.role = .normal ∧ p.quiet ≠ 0 then
    (w.on (fun s => (s.setRun (some (x.context .quiet))).setEngineTimers (startTimer s.now p.quiet) none none), .rest)
  else
    runSteps p.length 0 (w.on (fun s => (s.setRun (some (x.context .waiting))).setEngineTimers none none none))

/-- The step index of a run, absent while it is in QUIET (R113, R114). -/
def Run.stepReached (run : Run) : Option StepNo := if run.phase = .quiet then none else some run.step

/-- The last-run report of a run (R113). -/
def reportOf (run : Run) (o : RunOutcome) (reason : Reason) (refusal : Option Result) : Report where
  plan := run.plan
  role := run.role
  origin := run.origin
  tag := if run.origin = .host then run.tag else none
  outcome := o
  reason := reason
  failingStep := if o = .done then none else run.stepReached
  refusal := refusal

/-- The flag an outcome sets (R112 item 3). -/
def outcomeFlag (o : RunOutcome) (s : State) : State :=
  match o with
  | .done => setFlag .done s
  | .reset => s
  | _ => setFlag .fail s

/-- The engine record an outcome hands to the log (R112 item 4, R114). DESIGN CHOICE (log entry 26): the KILLED record sets the FAULT flag as every
opening and merge does (R150, R151, R161), where the table of R172 has that flag kept at a KILL# assertion edge. -/
def outcomeRecord (run : Run) (o : RunOutcome) (s : State) : State :=
  match o with
  | .failed =>
    match run.role with
    | .unwind =>
      logEngine .unwindFailed .unwind { plan := run.failedPlan.getD run.plan, step := run.failingStep } s
    | _ => logEngine .stepFailed run.role { plan := run.plan, step := run.stepReached } s
  | .preempted => logEngine .preempted run.role { plan := run.plan, step := run.stepReached } s
  | .killed => logEngine .killed run.role { plan := run.plan, step := run.stepReached } s
  | _ => s

/-- The end of a run, items 1 to 4 of R112: timers cancelled and selection emptied, report, flag, record. -/
def endRun (run : Run) (o : RunOutcome) (reason : Reason) (refusal : Option Result) (s : State) : State :=
  let s1 := mapRun (fun x => { x with selection := 0 }) (s.setEngineTimers none none none)
  outcomeRecord run o (outcomeFlag o (s1.setReport (reportOf run o reason refusal)))

/-- The engine goes IDLE (R118 item 3, R121, R122). -/
def goIdle (s : State) : State := s.setRun none

/-- The unwind run of a failed NORMAL run: its plan, and the origin, tag, plan and step of the failure (R115). -/
def unwindSpec (run : Run) (u : PlanNo) : RunSpec where
  plan := u
  role := .unwind
  origin := run.origin
  tag := run.tag
  failedPlan := some run.plan
  failingStep := some run.step

/-- How a chain's end ends its run: DONE, or FAILED with its reason (R112). -/
def endChain (run : Run) (e : ChainEnd) (s : State) : State :=
  match e with
  | .failed reason refusal => endRun run .failed reason refusal s
  | _ => endRun run .done .none none s

/-- The failure policy (R115, R116): the unwind run of a failed NORMAL run whose header names an unwind plan that is READY; or PLAN_MISSING.
The answer is how the unwind run's first chain stopped, or none when no unwind run started. -/
def failurePolicy (run : Run) (w : Work) : Work × Option ChainEnd :=
  match run.role, (w.s.plan run.plan).unwind with
  | .normal, some u =>
    if w.s.ready u then
      let (w1, e) := startRun (unwindSpec run u) w
      (w1, some e)
    else (w.on (logEngine .planMissing .normal { plan := run.plan, step := some run.step }), none)
  | _, _ => (w, none)

/-- The entry of the next run: the urgent slot's request first, then the oldest queue entry (R118). -/
def takeNext (s : State) : Option (RunSpec × State) :=
  match s.requests.slot with
  | some q =>
    some ({ plan := q.plan, role := .urgent, origin := .fault, tag := none, failedPlan := none, failingStep := none }, s.setSlot none)
  | none =>
    match s.requests.queue with
    | e :: l =>
      some ({ plan := e.plan, role := .normal, origin := e.origin, tag := e.tag, failedPlan := none, failingStep := none },
            s.setQueue l)
    | [] => none

/-- How many runs wait in the slot and the queue. -/
def State.waitingRuns (s : State) : Nat := (if s.requests.slot.isSome then 1 else 0) + s.requests.queue.length

/-- A chain that does not rest ends its run; a failed run is judged by the failure policy, and an unwind run whose first chain does not
rest ends too. The answer says whether a run is left to rest (true) or the next run must be chosen (false) (R112, R115 to R117). -/
def settleRun (w : Work) (e : ChainEnd) : Work × Bool :=
  match e, w.s.engine.run with
  | .rest, _ => (w, true)
  | _, none => (w, false)
  | .done, some run => (w.on (endChain run .done), false)
  | .failed reason refusal, some run =>
    match failurePolicy run (w.on (endChain run (.failed reason refusal))) with
    | (w1, none) => (w1, false)
    | (w1, some .rest) => (w1, true)
    | (w1, some e1) =>
      match w1.s.engine.run with
      | none => (w1, false)
      | some run1 => (w1.on (endChain run1 e1), false)

/-- The choice of the next run, again and again while the runs it starts end in the same event: at most once for each run that waits
(R118). -/
def chooseNext : Nat → Work → Work
  | 0, w => w.on goIdle
  | n + 1, w =>
    match takeNext w.s with
    | none => w.on goIdle
    | some (x, s1) =>
      let (w1, e) := startRun x { w with s := s1 }
      match settleRun w1 e with
      | (w2, true) => w2
      | (w2, false) => chooseNext n w2

/-- The engine after a chain: it rests, or its run ends and what follows is carried out in the same event (R100, R112 to R118). -/
def carryOn (w : Work) (e : ChainEnd) : Work :=
  match settleRun w e with
  | (w1, true) => w1
  | (w1, false) => chooseNext w1.s.waitingRuns w1

/-- The steps after the one at which the run stands, in the same event (R102, R109). -/
def nextSteps (run : Run) (w : Work) : Work :=
  let i := run.step.val + 1
  let (w1, e) := runSteps ((w.s.plan run.plan).length - i) i w
  carryOn w1 e

/-- The step in progress completes: hold-after, the next step, or the end DONE (R102). -/
def completeStep (run : Run) (w : Work) : Work :=
  let st := w.s.stepRec run run.step.val
  if st.holdAfter then w.on (enterHeld st.limit.toNat) else nextSteps run w

/-! ### Rail changes seen by the engine -/

/-- A rail state change judged by the engine's state (R97, R99, R104). -/
def engineSees (r : Rail) (w : Work) : Work :=
  match w.s.engine.run with
  | none => w
  | some run =>
    match run.phase with
    | .held => w
    | .quiet =>
      w.on (fun s => s.setEngineTimers (startTimer s.now (s.plan run.plan).quiet) s.engine.stepT s.engine.holdT)
    | .waiting =>
      match (w.s.stepRec run run.step.val).kind with
      | some kind =>
        if kind.awaits ∧ RailSet.has run.selection r then
          match judgeAwait kind w.s run.selection with
          | .waiting => w
          | .done => completeStep run (w.on endWait)
          | .failed => carryOn (w.on endWait) (.failed .awaitImpossible none)
        else w
      | none => w

/-- The changes of an event handed on, in ascending rail number, each to the rail change set and the engine (R10, R65). -/
def handOn (d : Delta) : Work :=
  (RailSet.rails d.changed).foldl (fun w r => engineSees r (w.on (addChanged r))) { s := d.s, reqs := d.reqs }

/-! ### Urgent requests -/

/-- The urgent run of a request (R98, R119). -/
def urgentSpec (q : PlanRequest) : RunSpec where
  plan := q.plan
  role := .urgent
  origin := .fault
  tag := none
  failedPlan := none
  failingStep := none

/-- The urgent run starts at once, and what follows in the same event (R119). -/
def startUrgent (q : PlanRequest) (w : Work) : Work :=
  let (w1, e) := startRun (urgentSpec q) w
  carryOn w1 e

/-- A fault-plan request judged by the run request unit (R136). -/
def judgeRequest (q : PlanRequest) (w : Work) : Work :=
  if w.s.pins.kill then w
  else if !w.s.ready q.plan then w.on (logEngine .planMissing .urgent { plan := q.plan, step := none })
  else
    match w.s.engine.run with
    | none => startUrgent q w
    | some run =>
      if run.role = .urgent then
        match w.s.requests.slot with
        | none => w.on (fun s => s.setSlot (some q))
        | some held =>
          if held.plan = q.plan then w
          else w.on (logEngine .urgentLost .urgent { plan := q.plan, step := none })
      else startUrgent q (w.on (endRun run .preempted .none none))

/-- The waiting requests judged one after another, the lowest-numbered requesting rail first, each on what the one before it left
(R136). The number of judgements is bounded (log entry 14). -/
def judgeRequests : Nat → Work → State
  | 0, w => w.s
  | n + 1, w =>
    match w.reqs with
    | [] => w.s
    | q :: l => judgeRequests n (judgeRequest q { w with reqs := l })

/-- The waiting requests of an event judged: those at hand, and at most one more for each rail (log entry 14). -/
def finishWork (w : Work) : State := judgeRequests (w.reqs.length + 16) w

/-- A rail event handed on whole: changes, requests, SHED latch (R10, R65). -/
def finish (d : Delta) : State :=
  let s := finishWork (handOn d)
  if d.shed then setShed s else s

end Sys2Proof.Machine
end

