-- ==== Sys2Proof/Machine/Arrivals.lean ====
section
/-! DEFINITION. The arrivals of the monitor front ends: zones and over-current flags (R28 to R30), with the sensed value that stands behind
each. A report that no front end can give for the sensed value, or that goes back within a band on a report given in it, is no arrival (R187; log
entries 5 and 25). -/

namespace Sys2Proof.Machine

/-- The voltage sense input of a rail moved. -/
def State.senseVoltage (s : State) (r : Rail) (mv : Nat) : State := s.setRail r { s.rail r with senseMv := mv }

/-- The current sense input of a rail moved. -/
def State.senseCurrent (s : State) (r : Rail) (ma : Nat) : State := s.setRail r { s.rail r with senseMa := ma }

/-- The channel takes a zone that its front end delivers, and judges it (R28, R30). -/
def arriveZone (now : Uptime) (zone : Zone) (e : RailStep) : RailStep := railZoneArrival now (e.withRc { e.rc with zone := zone })

/-- The channel takes a flag that its front end delivers, and judges it (R29, R30). -/
def arriveFlag (now : Uptime) (asserted : Bool) (e : RailStep) : RailStep :=
  railOverCurrent now (e.withRc { e.rc with overCurrent := asserted })

/-- A zone reported: the front end remembers on which side of a band it stood, and the channel takes the arrival (R187, R28). -/
def takeZone (now : Uptime) (zone : Zone) (e : RailStep) : RailStep := arriveZone now zone (e.withRc (e.rc.noteZone zone))

/-- A flag reported, in the same way (R187, R29). -/
def takeFlag (now : Uptime) (asserted : Bool) (e : RailStep) : RailStep := arriveFlag now asserted (e.withRc (e.rc.noteFlag asserted))

/-- The sensed voltage of a rail becomes `mv` and its front end reports `zone`. With the zone it holds already there is no arrival, and the
front end takes note of the voltage alone; while RESET# is asserted it only senses (R28, R11, R187; log entries 5, 17 and 25). -/
def zoneArrival (r : Rail) (zone : Zone) (mv : Nat) (s : State) : State :=
  if s.pins.inReset then s.senseVoltage r mv
  else if !(s.rail r).mayReportZone zone mv then s
  else if (s.rail r).zone = zone then s.setRail r (RailChan.noteZone { s.rail r with senseMv := mv } zone)
  else finish (onRail r (takeZone s.now zone) (Delta.of (s.senseVoltage r mv)))

/-- The sensed current of a rail becomes `ma` and its front end reports its flag at `asserted` (R29; log entries 5 and 17). -/
def overCurrentArrival (r : Rail) (asserted : Bool) (ma : Nat) (s : State) : State :=
  if s.pins.inReset then s.senseCurrent r ma
  else if !(s.rail r).mayReportFlag asserted ma then s
  else if (s.rail r).overCurrent = asserted then s.setRail r (RailChan.noteFlag { s.rail r with senseMa := ma } asserted)
  else finish (onRail r (takeFlag s.now asserted) (Delta.of (s.senseCurrent r ma)))

/-- ZONE_ARRIVAL (R28). -/
def execZoneArrival (rail : Rail) (zone : Zone) (mv : Nat) (s : State) : Host.Outcome State Fault Refusal :=
  .next (zoneArrival rail zone mv s)

/-- OVER_CURRENT_ARRIVAL (R29). -/
def execOverCurrentArrival (rail : Rail) (asserted : Bool) (ma : Nat) (s : State) : Host.Outcome State Fault Refusal :=
  .next (overCurrentArrival rail asserted ma s)

end Sys2Proof.Machine
end

