-- ==== Sys2Proof/Machine/Expiries.lean ====
section
/-! DEFINITION. The expiries of the timers, and the millisecond tick (R19, R24, R27, R35, R36, R47, R48, R51, R99, R107, R110, R156). A
timer that does not run has no expiry, so its row then has no effect (log entry 6). -/

namespace Sys2Proof.Machine

/-- An expiry of one of a rail's timers: the rail, and what it hands on (R10). -/
def railExpiry (r : Rail) (f : RailStep → RailStep) (s : State) : State := finish (onRail r f (Delta.of s))

/-- A retry expiry, with the parents-ON question, KILL# and the bound input as they stand (R51, R52). -/
def retryExpiry (r : Rail) (s : State) : State :=
  railExpiry r (railRetryExpiry s.now (s.boundAsserted r) (s.parentNotOn r).isNone s.pins.kill) s

/-- A quiet expiry: step 0 starts, and the chain of steps with it (R99, R100). -/
def quietExpiry (s : State) : State :=
  match s.engine.run with
  | none => s
  | some run =>
    if run.phase = .quiet ∧ s.engine.quietT ≠ none then
      let w : Work := { s := s.setEngineTimers none s.engine.stepT s.engine.holdT, reqs := [] }
      let (w1, e) := runSteps (s.plan run.plan).length 0 w
      finishWork (carryOn w1 e)
    else s

/-- A step timer expiry: an AWAIT step fails with AWAIT_TIMEOUT, a PAUSE step completes (R107). -/
def stepTimerExpiry (s : State) : State :=
  match s.engine.run with
  | none => s
  | some run =>
    if run.phase = .waiting ∧ s.engine.stepT ≠ none then
      match (s.stepRec run run.step.val).kind with
      | some .awaitOn => finishWork (carryOn { s := endWait s, reqs := [] } (.failed .awaitTimeout none))
      | some .awaitOff => finishWork (carryOn { s := endWait s, reqs := [] } (.failed .awaitTimeout none))
      | some .pause => finishWork (completeStep run { s := endWait s, reqs := [] })
      | _ => s
    else s

/-- A hold expiry: the run fails with HOLD_EXPIRED (R110). -/
def holdExpiry (s : State) : State :=
  match s.engine.run with
  | none => s
  | some run =>
    if run.phase = .held ∧ s.engine.holdT ≠ none then finishWork (carryOn { s := s, reqs := [] } (.failed .holdExpired none)) else s

/-- One millisecond of uptime; none while RESET# is asserted (R156). -/
def uptimeTick (s : State) : State :=
  if s.pins.inReset then s else { s with log := { s.log with uptime := s.log.uptime + 1 } }

/-- RAMP_EXPIRY (R19). -/
def execRampExpiry (rail : Rail) (s : State) : Host.Outcome State Fault Refusal :=
  .next (railExpiry rail (railRampExpiry s.now) s)

/-- SETTLE_EXPIRY (R19). -/
def execSettleExpiry (rail : Rail) (s : State) : Host.Outcome State Fault Refusal := .next (railExpiry rail railSettleExpiry s)

/-- DISCHARGE_EXPIRY (R24, R47, R48). -/
def execDischargeExpiry (rail : Rail) (s : State) : Host.Outcome State Fault Refusal := .next (railExpiry rail railDischargeExpiry s)

/-- BACKFEED_FILTER_EXPIRY (R27). -/
def execBackfeedFilterExpiry (rail : Rail) (s : State) : Host.Outcome State Fault Refusal :=
  .next (railExpiry rail railBackfeedExpiry s)

/-- UV_FILTER_EXPIRY (R35). -/
def execUvFilterExpiry (rail : Rail) (s : State) : Host.Outcome State Fault Refusal :=
  .next (railExpiry rail (railUvExpiry s.now) s)

/-- OC_FILTER_EXPIRY (R36). -/
def execOcFilterExpiry (rail : Rail) (s : State) : Host.Outcome State Fault Refusal :=
  .next (railExpiry rail (railOcExpiry s.now) s)

/-- RETRY_EXPIRY (R51). -/
def execRetryExpiry (rail : Rail) (s : State) : Host.Outcome State Fault Refusal := .next (retryExpiry rail s)

/-- QUIET_EXPIRY (R99). -/
def execQuietExpiry (s : State) : Host.Outcome State Fault Refusal := .next (quietExpiry s)

/-- STEP_TIMER_EXPIRY (R107). -/
def execStepTimerExpiry (s : State) : Host.Outcome State Fault Refusal := .next (stepTimerExpiry s)

/-- HOLD_EXPIRY (R110). -/
def execHoldExpiry (s : State) : Host.Outcome State Fault Refusal := .next (holdExpiry s)

/-- UPTIME_TICK (R156). -/
def execUptimeTick (s : State) : Host.Outcome State Fault Refusal := .next (uptimeTick s)

end Sys2Proof.Machine
end

