-- ==== Sys2Proof/Machine/HostCommand.lean ====
section
/-! DEFINITION. The command protocol (R173, R176 to R178): what every write to CMD has in common, and the guard of every bus cycle. -/

namespace Sys2Proof.Machine

/-- A bus cycle: none is taken while RESET# is asserted, and a write is then ignored (R173). -/
def busWrite (f : State → State) (s : State) : State := if s.pins.inReset then s else f s

/-- A read cycle of a row: the byte it drives on D0 to D7 is kept in `lastRead`; while RESET# is asserted a read drives 0 and no cycle is
taken (R173). -/
def busRead (f : State → Byte × State) (s : State) : State :=
  if s.pins.inReset then { s with bus := { s.bus with lastRead := 0 } }
  else
    let (b, s1) := f s
    { s1 with bus := { s1.bus with lastRead := b } }

/-- CMD keeps the code written (R176). -/
def setCmd (code : Byte) (s : State) : State := { s with bus := { s.bus with cmd := code } }

/-- The owner's result written to RES and RDET, and the REFUSED flag set by a refusal (R177 items 3 and 4, R178). -/
def answer (v : Verdict) (s : State) : State :=
  let s1 := { s with bus := { s.bus with res := v.code.code, rdet := v.detail } }
  if v.code.isRefusal then setFlag .refused s1 else s1

/-- A write to CMD: the code kept, the owner's judgement and work, the answer (R177). -/
def hostCommand (code : Byte) (owner : State → Verdict × State) : State → State :=
  busWrite (fun s =>
    let (v, s1) := owner (setCmd code s)
    answer v s1)

/-- The owner's work of a rail or group command: judged, carried out, and handed on in the event (R10, R13, R67). -/
def ownRails (f : State → Verdict × Delta) (s : State) : Verdict × State :=
  let (v, d) := f s
  (v, finish d)

end Sys2Proof.Machine
end

