-- ==== Sys2Proof/Machine/PlanCommands.lean ====
section
/-! DEFINITION. The plan store's commands: DEFINE, COMMIT and ERASE (R77 to R93). -/

namespace Sys2Proof.Machine

/-- The first place where a plan is in use: 1 the engine's run, 2 the run queue, 3 the urgent slot (R81). -/
def State.planInUse (s : State) (p : PlanNo) : Option Nat :=
  if s.engine.run.any (fun run => run.plan == p) then some 1
  else if s.requests.queue.any (fun e => e.plan == p) then some 2
  else if s.requests.slot.any (fun q => q.plan == p) then some 3
  else none

/-- DEFINE's unwind operand: a plan number 0 to 7, or FFh for none; any other value is refused (R83). -/
def unwindOperand (b : Byte) : Option (Option PlanNo) :=
  match planOf b with
  | some u => some (some u)
  | none => if b = 0xFF then some none else none

/-- A plan as an accepted DEFINE leaves it: header set, every step byte 0 (R84). -/
def definedPlan (length : Nat) (unwind : Option PlanNo) (quiet : Nat) : Plan where
  state := .defining
  length := length
  unwind := unwind
  quiet := quiet
  slot := Vector.replicate 64 0

/-- An accepted DEFINE (R84). -/
def applyDefine (p : PlanNo) (x : Plan) (s : State) : State := ((s.setPlan p x).setDefining (some p)).setWriteCount 0

/-- DEFINE with valid operands: checks 2 and 3 of R83, then R84. -/
def judgeDefine (p : PlanNo) (x : Plan) (s : State) : Verdict × State :=
  match s.planInUse p with
  | some place => ({ code := .planInUse, detail := byte place }, s)
  | none =>
    match (if s.store.defining = some p then none else s.store.defining) with
    | some other => ({ code := .state, detail := byte other.val }, s)
    | none => (.plain .accepted, applyDefine p x s)

/-- DEFINE: ARG0 plan, ARG1 length, ARG2 unwind plan or FFh, ARG3 quiet interval (R83, R84). -/
def hostDefine (s : State) : Verdict × State :=
  match planOperand s.bus.arg0, unwindOperand s.bus.arg2 with
  | some p, some u =>
    if s.bus.arg1.toNat = 0 ∨ 16 < s.bus.arg1.toNat ∨ u = some p then (.plain .badArgument, s)
    else judgeDefine p (definedPlan s.bus.arg1.toNat u s.bus.arg3.toNat) s
  | _, _ => (.plain .badArgument, s)

/-- Whether a step is bad (R88, R190). -/
def StepRec.bad (st : StepRec) : Bool :=
  match st.kind with
  | none => true
  | some k =>
    let targets := k == .raise || k == .lower || k == .clear || k == .awaitOn || k == .awaitOff
    let timed := k == .awaitOn || k == .awaitOff || k == .pause
    (targets && !st.group && decide (15 < st.target.toNat)) || (timed && st.time == 0)

/-- The first bad step within the length, or none (R87 check 3, R88). -/
def Plan.firstBad (p : Plan) : Option Nat := (List.range p.length).find? (fun i => (p.step i).bad)

/-- COMMIT: no operand (R87, R89). -/
def hostCommit (s : State) : Verdict × State :=
  match s.store.defining with
  | none => (.plain .state, s)
  | some p =>
    if s.bus.writeCount.toNat ≠ 4 * (s.plan p).length then ({ code := .lengthMismatch, detail := s.bus.writeCount }, s)
    else
      match (s.plan p).firstBad with
      | some i => ({ code := .badStep, detail := byte i }, s)
      | none =>
        ({ code := .accepted, detail := byte p.val },
         ((s.setPlan p { s.plan p with state := .ready }).setDefining none).setWriteCount 0)

/-- A plan made EMPTY; when it was the DEFINING one, the marker names no plan and the write count is 0 (R78, R90). -/
def emptyPlan (p : PlanNo) (s : State) : State :=
  let s1 := s.setPlan p Plan.blank
  if s.store.defining = some p then (s1.setDefining none).setWriteCount 0 else s1

/-- ERASE, its plan in ARG0 (R90). -/
def hostErase (s : State) : Verdict × State :=
  match planOperand s.bus.arg0 with
  | none => (.plain .badArgument, s)
  | some p =>
    match s.planInUse p with
    | some place => ({ code := .planInUse, detail := byte place }, s)
    | none => if (s.plan p).state = .empty then (.plain .already, s) else (.plain .accepted, emptyPlan p s)

/-- DEFINE (R84). -/
def execDefine (s : State) : Host.Outcome State Fault Refusal := .next (hostCommand 0x10 hostDefine s)

/-- COMMIT (R87). -/
def execCommit (s : State) : Host.Outcome State Fault Refusal := .next (hostCommand 0x11 hostCommit s)

/-- ERASE (R90). -/
def execErase (s : State) : Host.Outcome State Fault Refusal := .next (hostCommand 0x12 hostErase s)

end Sys2Proof.Machine
end

