-- ==== Sys2Proof/Machine/RunCommands.lean ====
section
/-! DEFINITION. The run side's commands: RUN, CANCEL (R126 to R129), RELEASE (R109), ABORT (R111) and ENGINE_RESET (R122, R139). -/

namespace Sys2Proof.Machine

/-- An entry joins the queue at the tail; an IDLE engine takes it at once (R120, R128, R132). -/
def joinQueue (e : QueueEntry) (s : State) : State :=
  let s1 := s.setQueue (s.requests.queue ++ [e])
  if s.idle then finishWork (chooseNext s1.waitingRuns { s := s1, reqs := [] }) else s1

/-- The position of a plan's queue entry (R127, R129). -/
def State.queuePosition (s : State) (p : PlanNo) : Option Nat := s.requests.queue.findIdx? (fun e => e.plan == p)

/-- RUN: ARG0 plan, ARG1 tag (R127, R128). -/
def hostRun (s : State) : Verdict × State :=
  match planOperand s.bus.arg0 with
  | none => (.plain .badArgument, s)
  | some p =>
    if s.pins.kill then (.plain .killed, s)
    else if !s.ready p then (.plain .planNotReady, s)
    else
      match s.queuePosition p with
      | some i => ({ code := .duplicate, detail := byte i }, s)
      | none =>
        if 4 ≤ s.requests.queue.length then ({ code := .queueFull, detail := 4 }, s)
        else
          ({ code := .accepted, detail := if s.idle then 0 else byte (s.requests.queue.length + 1) },
           joinQueue { plan := p, origin := .host, tag := some s.bus.arg1 } s)

/-- CANCEL, its plan in ARG0 (R129). -/
def hostCancel (s : State) : Verdict × State :=
  match planOperand s.bus.arg0 with
  | none => (.plain .badArgument, s)
  | some p =>
    match s.queuePosition p with
    | none => (.plain .notFound, s)
    | some i => ({ code := .accepted, detail := byte i }, s.setQueue (s.requests.queue.eraseIdx i))

/-- RELEASE: in HELD the hold timer is cancelled and the run goes on in the same event (R109). -/
def hostRelease (s : State) : Verdict × State :=
  match s.engine.run with
  | some run =>
    if run.phase = .held then
      ({ code := .accepted, detail := byte run.step.val },
       finishWork (nextSteps run { s := s.setEngineTimers s.engine.quietT s.engine.stepT none, reqs := [] }))
    else (.plain .notHeld, s)
  | none => (.plain .notHeld, s)

/-- ABORT: the run in progress ends ABORTED and the engine chooses its next run (R111). -/
def hostAbort (s : State) : Verdict × State :=
  match s.engine.run with
  | some run =>
    let s1 := endRun run .aborted .none none s
    ({ code := .accepted, detail := byte run.plan.val }, finishWork (chooseNext s1.waitingRuns { s := s1, reqs := [] }))
  | none => (.plain .notRunning, s)

/-- The run in progress ended with an outcome after which the engine goes IDLE: KILLED or RESET (R121, R122). -/
def stopRun (o : RunOutcome) (s : State) : State :=
  match s.engine.run with
  | some run => goIdle (endRun run o .none none s)
  | none => s

/-- The run queue and the urgent slot emptied (R139). -/
def emptyRequests (s : State) : State := (s.setQueue []).setSlot none

/-- The DEFINING plan, when there is one, made EMPTY (R78). -/
def emptyDefining (s : State) : State :=
  match s.store.defining with
  | some p => emptyPlan p s
  | none => s

/-- ENGINE_RESET (R122, R78, R139). -/
def hostEngineReset (s : State) : Verdict × State :=
  let s1 := (stopRun .reset s).setEngineTimers none none none
  (.plain .accepted, setFlag .restart (emptyDefining (emptyRequests s1)))

/-- RUN (R127). -/
def execRun (s : State) : Host.Outcome State Fault Refusal := .next (hostCommand 0x18 hostRun s)

/-- CANCEL (R129). -/
def execCancel (s : State) : Host.Outcome State Fault Refusal := .next (hostCommand 0x19 hostCancel s)

/-- RELEASE (R109). -/
def execRelease (s : State) : Host.Outcome State Fault Refusal := .next (hostCommand 0x1A hostRelease s)

/-- ABORT (R111). -/
def execAbort (s : State) : Host.Outcome State Fault Refusal := .next (hostCommand 0x1B hostAbort s)

/-- ENGINE_RESET (R122). -/
def execEngineReset (s : State) : Host.Outcome State Fault Refusal := .next (hostCommand 0x30 hostEngineReset s)

end Sys2Proof.Machine
end

