-- ==== Sys2Proof/Machine/Inputs.lean ====
section
/-! DEFINITION. The resets (R2, R71, R78, R96, R126, R131, R160, R172, R186) and the edges of the input pins: KILL# (R71 to R75), XF0# and
XF1# (R39, R41), PWRREQ# (R131, R132). While RESET# is asserted an edge changes the level that the part will find and nothing else (log entry 17). -/

namespace Sys2Proof.Machine

/-! ### KILL# -/

/-- What an assertion edge of KILL# does to the rails, in ascending number (R72). -/
def killRails (s : State) : Delta := allRails.foldl (fun d r => onRail r (railKill d.s.now) d) (Delta.of s)

/-- What an assertion edge of KILL# does, its level already taken: the rails; the run ends KILLED and judges none of the changes; queue and slot
emptied; the rails that changed join the change set; SHED latch and KILL flag set (R72, R73, R121, R139). -/
def killEffect (s : State) : State :=
  let d := killRails s
  let s1 := emptyRequests ((stopRun .killed d.s).setEngineTimers none none none)
  setFlag .kill (setShed ((RailSet.rails d.changed).foldl (fun t r => addChanged r t) s1))

/-- The level of KILL# taken. -/
def State.setKill (s : State) (level : Bool) : State := { s with pins := { s.pins with kill := level } }

/-- An assertion edge of KILL# (R71 to R73, R121). -/
def killAssertion (s : State) : State :=
  if s.pins.kill then s else if s.pins.inReset then s.setKill true else killEffect (s.setKill true)

/-- A deassertion edge of KILL#: the KILL flag, and nothing else (R75). -/
def killDeassertion (s : State) : State :=
  if !s.pins.kill then s else if s.pins.inReset then s.setKill false else setFlag .kill (s.setKill false)

/-! ### Resets -/

/-- A rail channel taken to its reset values, its front end finding its view of the sense inputs against the reset levels, without an arrival
(R2, R11). -/
def resetRail (free : Nat) (r : Rail) (c : RailChan) : RailChan :=
  RailChan.atReset (foundZone free r RailCfg.reset c.senseMv) (foundOverCurrent free r RailCfg.reset c.senseMa) c.senseMv c.senseMa

/-- Every block at its reset values, the notification unit held as it is while RESET# is asserted (R2, R78, R96, R126, R130, R133, R160, R172,
R186). The inputs and the commands that wait stay. -/
def resetBlocks (s : State) : State where
  rails := Vector.ofFn (fun r => resetRail s.freeIndex r (s.rail r))
  store := PlanStore.reset
  engine := Engine.reset
  requests := RequestUnit.reset
  log := FaultLog.reset
  notify := Notify.held
  bus := HostBus.reset
  pins := s.pins
  freeIndex := s.freeIndex + 1
  pending := s.pending

/-- The end of a reset: RESTART is set, and KILL# found asserted acts as an assertion edge (R71, R172). -/
def endOfReset (s : State) : State :=
  let s1 := setFlag .restart (resetBlocks s)
  if s1.pins.kill then killEffect s1 else s1

/-- The level of RESET# taken. -/
def State.setReset (s : State) (level : Bool) : State := { s with pins := { s.pins with inReset := level } }

/-- A power-on reset; it ends only with RESET# deasserted (R186; log entry 17). -/
def powerOn (s : State) : State := if s.pins.inReset then resetBlocks s else endOfReset s

/-- RESET# asserted: the part is held at its reset values (R2, R172, R173, R186). -/
def resetAssert (s : State) : State := if s.pins.inReset then s else resetBlocks (s.setReset true)

/-- RESET# deasserted: the end of the pin reset (R186). -/
def resetDeassert (s : State) : State := if s.pins.inReset then endOfReset (s.setReset false) else s

/-! ### XF0# and XF1# -/

/-- The rails bound to an external fault input, ascending (R39). -/
def State.boundRails (s : State) (x : XfInput) : List Rail := allRails.filter (fun r => (s.rail r).cfg.binding == some x)

/-- The order in which the bound rails take one edge: free when there are several (R41, log entry 4). -/
def edgeOrder (s : State) (x : XfInput) : List Rail :=
  let bound := s.boundRails x
  if bound.length ≤ 1 then bound
  else
    let first := ((Config.edgeOrder s.freeIndex).filter (fun r => bound.contains r)).eraseDups
    first ++ bound.filter (fun r => !first.contains r)

/-- One bound rail takes an assertion edge, an arrival of its own (R39, R41). -/
def takeAssertion (r : Rail) (s : State) : State := finish (onRail r (railXfAssert s.now) (Delta.of s))

/-- One bound rail takes a deassertion edge (R39). -/
def takeDeassertion (r : Rail) (s : State) : State := s.setRail r (railXfDeassert (s.rail r))

/-- An assertion edge of XF0# or XF1# (R39, R41). -/
def xfAssertion (x : XfInput) (s : State) : State :=
  if s.xf x then s
  else if s.pins.inReset then s.setXf x true
  else (edgeOrder s x).foldl (fun t r => takeAssertion r t) { s.setXf x true with freeIndex := s.freeIndex + 1 }

/-- A deassertion edge of XF0# or XF1# (R39). -/
def xfDeassertion (x : XfInput) (s : State) : State :=
  if !s.xf x then s
  else if s.pins.inReset then s.setXf x false
  else (s.boundRails x).foldl (fun t r => takeDeassertion r t) (s.setXf x false)

/-! ### PWRREQ# -/

/-- The level of PWRREQ# taken, true when asserted (low). -/
def State.setPwrreq (s : State) (level : Bool) : State := { s with pins := { s.pins with pwrreq := level } }

/-- A falling edge judged (R132). -/
def pwrRequest (s : State) : State :=
  if s.pins.kill then s
  else
    match s.requests.pwrPlan with
    | none => s
    | some p =>
      if !s.ready p then logEngine .planMissing .normal { plan := p, step := none } s
      else if (s.queuePosition p).isSome then s
      else if 4 ≤ s.requests.queue.length then logEngine .requestLost .normal { plan := p, step := none } s
      else joinQueue { plan := p, origin := .pin, tag := none } s

/-- A falling edge of PWRREQ# (R131, R132). -/
def pwrreqFalling (s : State) : State :=
  if s.pins.pwrreq then s else if s.pins.inReset then s.setPwrreq true else pwrRequest (s.setPwrreq true)

/-- A rising edge of PWRREQ#: the level, and nothing else (R131). -/
def pwrreqRising (s : State) : State := s.setPwrreq false

/-! ### Meanings -/

/-- POWER_ON_RESET (R186). -/
def execPowerOnReset (s : State) : Host.Outcome State Fault Refusal := .next (powerOn s)

/-- RESET_ASSERTION (R186). -/
def execResetAssertion (s : State) : Host.Outcome State Fault Refusal := .next (resetAssert s)

/-- RESET_DEASSERTION (R186). -/
def execResetDeassertion (s : State) : Host.Outcome State Fault Refusal := .next (resetDeassert s)

/-- KILL_ASSERTION_EDGE (R72, R73). -/
def execKillAssertionEdge (s : State) : Host.Outcome State Fault Refusal := .next (killAssertion s)

/-- KILL_DEASSERTION_EDGE (R75). -/
def execKillDeassertionEdge (s : State) : Host.Outcome State Fault Refusal := .next (killDeassertion s)

/-- XF_ASSERTION_EDGE (R39). -/
def execXfAssertionEdge (input : XfInput) (s : State) : Host.Outcome State Fault Refusal := .next (xfAssertion input s)

/-- XF_DEASSERTION_EDGE (R39). -/
def execXfDeassertionEdge (input : XfInput) (s : State) : Host.Outcome State Fault Refusal := .next (xfDeassertion input s)

/-- PWRREQ_FALLING_EDGE (R132). -/
def execPwrreqFallingEdge (s : State) : Host.Outcome State Fault Refusal := .next (pwrreqFalling s)

/-- PWRREQ_RISING_EDGE (R131). -/
def execPwrreqRisingEdge (s : State) : Host.Outcome State Fault Refusal := .next (pwrreqRising s)

end Sys2Proof.Machine
end

