-- ==== Sys2Proof/Machine/ConfigCommands.lean ====
section
/-! DEFINITION. LOAD_RAIL (R5) and WRITE_RAIL (R6 to R8). -/

namespace Sys2Proof.Machine

/-- The staging buffer set. -/
def State.setStaging (s : State) (v : Vector Byte 20) : State := { s with bus := { s.bus with staging := v } }

/-- LOAD_RAIL, its rail in ARG0 (R5). -/
def hostLoadRail (s : State) : Verdict × State :=
  match railOperand s.bus.arg0 with
  | none => (.plain .badArgument, s)
  | some r => (.plain .accepted, s.setStaging (encodeCfg (s.rail r).cfg))

/-- The checks of R7 on the staging buffer for rail r, in order: the number of the first that fails, or none. -/
def configCheck (s : State) (r : Rail) : Option Nat :=
  let v := s.bus.staging
  let c := decodeCfg v
  if levelOutOfRange c.offLevel || levelOutOfRange c.goodLevel || levelOutOfRange c.overLevel then some 1
  else if c.goodLevel ≤ c.offLevel ∨ c.overLevel ≤ c.goodLevel then some 2
  else if fieldUndefined v then some 3
  else if c.parents.any (fun p => decide (r ≤ p)) then some 4
  else if c.parentB ≠ none ∧ (c.parentA = none ∨ c.parentB = c.parentA) then some 5
  else if c.parents.any (fun p => (s.rail p).state == .unused) then some 6
  else if c.detect.ext ∧ c.binding = none then some 7
  else if c.response = .retry ∧ c.retryLimit = 0 then some 8
  else none

/-- WRITE_RAIL judged (R6). -/
def judgeWrite (s : State) (r : Rail) : Verdict :=
  if (s.rail r).state ≠ .off ∧ (s.rail r).state ≠ .unused then .plain .state
  else
    match configCheck s r with
    | some n => { code := .invalidConfig, detail := byte n }
    | none =>
      match (if (decodeCfg s.bus.staging).used then none else s.usedChild r) with
      | some x => { code := .parentInUse, detail := railByte x }
      | none => .plain .accepted

/-- The next free value is left for the next event that reads one. -/
def nextFree (s : State) : State := { s with freeIndex := s.freeIndex + 1 }

/-- The rail part of an accepted WRITE_RAIL: the record copied and items 1 to 7 of R8, the front end comparing with the new record. -/
def writeDelta (s : State) (r : Rail) : Delta :=
  let c := decodeCfg s.bus.staging
  let zone := foundZone s.freeIndex r c (s.rail r).senseMv
  let oc := foundOverCurrent s.freeIndex r c (s.rail r).senseMa
  onRail r (railWrite s.now c zone oc) (Delta.of (nextFree s))

/-- An accepted WRITE_RAIL: the rail, the hand-on, and FLT# recomputed (R8). -/
def applyWrite (s : State) (r : Rail) : State := recomputeFlt (finish (writeDelta s r))

/-- WRITE_RAIL, its rail in ARG0 (R6, R8). -/
def hostWriteRail (s : State) : Verdict × State :=
  match railOperand s.bus.arg0 with
  | none => (.plain .badArgument, s)
  | some r =>
    let v := judgeWrite s r
    (v, if v.code = .accepted then applyWrite s r else s)

/-- LOAD_RAIL (R5). -/
def execLoadRail (s : State) : Host.Outcome State Fault Refusal := .next (hostCommand 0x08 hostLoadRail s)

/-- WRITE_RAIL (R8). -/
def execWriteRail (s : State) : Host.Outcome State Fault Refusal := .next (hostCommand 0x09 hostWriteRail s)

end Sys2Proof.Machine
end

