-- ==== Sys2Proof/Machine/RailCommands.lean ====
section
/-! DEFINITION. The single-rail and group commands from the host: RAISE, LOWER, CLEAR (R13 to R16) and RAISE_GROUP, LOWER_GROUP,
CLEAR_GROUP (R67 to R70). -/

namespace Sys2Proof.Machine

/-- RAISE, its rail in ARG0 (R14). -/
def hostRaise (s : State) : Verdict × State := ownRails (railCommandOf judgeRaise doRaise s.bus.arg0) s

/-- LOWER, its rail in ARG0 (R15). -/
def hostLower (s : State) : Verdict × State := ownRails (railCommandOf judgeLower doLower s.bus.arg0) s

/-- CLEAR, its rail in ARG0 (R16). -/
def hostClear (s : State) : Verdict × State := ownRails (railCommandOf judgeClear doClear s.bus.arg0) s

/-- RAISE_GROUP, tag in ARG0 and mask in ARG1 (R67, R68). -/
def hostRaiseGroup (s : State) : Verdict × State :=
  ownRails (groupCommandOf (groupEach judgeRaise doRaise) s.bus.arg0 s.bus.arg1) s

/-- LOWER_GROUP, tag in ARG0 and mask in ARG1 (R67, R70). -/
def hostLowerGroup (s : State) : Verdict × State := ownRails (groupCommandOf groupLower s.bus.arg0 s.bus.arg1) s

/-- CLEAR_GROUP, tag in ARG0 and mask in ARG1 (R67, R69). -/
def hostClearGroup (s : State) : Verdict × State :=
  ownRails (groupCommandOf (groupEach judgeClear doClear) s.bus.arg0 s.bus.arg1) s

/-- RAISE (R14). -/
def execRaise (s : State) : Host.Outcome State Fault Refusal := .next (hostCommand 0x01 hostRaise s)

/-- LOWER (R15). -/
def execLower (s : State) : Host.Outcome State Fault Refusal := .next (hostCommand 0x02 hostLower s)

/-- CLEAR (R16). -/
def execClear (s : State) : Host.Outcome State Fault Refusal := .next (hostCommand 0x03 hostClear s)

/-- RAISE_GROUP (R68). -/
def execRaiseGroup (s : State) : Host.Outcome State Fault Refusal := .next (hostCommand 0x04 hostRaiseGroup s)

/-- LOWER_GROUP (R70). -/
def execLowerGroup (s : State) : Host.Outcome State Fault Refusal := .next (hostCommand 0x05 hostLowerGroup s)

/-- CLEAR_GROUP (R69). -/
def execClearGroup (s : State) : Host.Outcome State Fault Refusal := .next (hostCommand 0x06 hostClearGroup s)

end Sys2Proof.Machine
end

