-- ==== Sys2Proof/Machine/ReportCommands.lean ====
section
/-! DEFINITION. LOG_POP (R154) and SHED_ACK (R170). -/

namespace Sys2Proof.Machine

/-- LOG_POP: the oldest record removed, its source in RDET, FLT# recomputed (R154). -/
def hostLogPop (s : State) : Verdict × State :=
  match s.log.records with
  | [] => (.plain .logEmpty, s)
  | x :: l => ({ code := .accepted, detail := byte x.subject.source }, recomputeFlt (s.setRecords l))

/-- The lowest-numbered shed member that is FAULTED or LOCKED (R170 check 3). -/
def State.shedBlocker (s : State) : Option Rail :=
  lowestRail (fun r => (s.rail r).cfg.shedMember && ((s.rail r).state == .faulted || (s.rail r).state == .locked))

/-- SHED_ACK (R170). -/
def hostShedAck (s : State) : Verdict × State :=
  if !s.notify.shed then (.plain .already, s)
  else if s.pins.kill then ({ code := .shedActive, detail := 16 }, s)
  else
    match s.shedBlocker with
    | some r => ({ code := .shedActive, detail := railByte r }, s)
    | none => (.plain .accepted, s.setNotify { s.notify with shed := false })

/-- LOG_POP (R154). -/
def execLogPop (s : State) : Host.Outcome State Fault Refusal := .next (hostCommand 0x20 hostLogPop s)

/-- SHED_ACK (R170). -/
def execShedAck (s : State) : Host.Outcome State Fault Refusal := .next (hostCommand 0x21 hostShedAck s)

end Sys2Proof.Machine
end

