-- ==== Sys2Proof/Machine/TablePort.lean ====
section
/-! DEFINITION. The table port: the record that TSEL and TIDX name, the copy, the byte at TPTR, and what a read and a write of TDATA do
(R179 to R183, R85, R134, R153). -/

namespace Sys2Proof.Machine

/-! ### Records -/

/-- The LOG record at a position; at or beyond LOGN an absent record (R153). -/
def logEntryBytes (s : State) (tidx : Byte) : List Byte :=
  match s.log.records[tidx.toNat]? with
  | some x => logBytes x
  | none => absentLogBytes

/-- The QUEUE record at a place: 0 to 3 a queue entry, 4 the urgent slot, else an absent entry (R134). -/
def queuePlaceBytes (s : State) (tidx : Byte) : List Byte :=
  if tidx.toNat = 4 then
    match s.requests.slot with
    | some q => slotBytes q
    | none => absentEntryBytes
  else if tidx.toNat < 4 then
    match s.requests.queue[tidx.toNat]? with
    | some e => queueBytes e
    | none => absentEntryBytes
  else absentEntryBytes

/-- The LAST_RUN record (R113, R180). -/
def lastRunBytes (s : State) : List Byte :=
  match s.engine.report with
  | some r => reportBytes r
  | none => absentReportBytes

/-- The record that a table and TIDX name, as it stands (R179); empty, so that every byte of it reads 0, where TIDX names no rail or plan
(R180, R191). -/
def recordBytes (s : State) (t : Table) (tidx : Byte) : List Byte :=
  match t with
  | .railCfg => ((railOf tidx).map (fun r => (encodeCfg (s.rail r).cfg).toList)).getD []
  | .staging => s.bus.staging.toList
  | .railStatus => ((railOf tidx).map (fun r => statusBytes (s.rail r))).getD []
  | .planHdr => ((planOf tidx).map (fun p => headerBytes (s.plan p) s.bus.writeCount)).getD []
  | .planSteps => ((planOf tidx).map (fun p => (s.plan p).slot.toList)).getD []
  | .log => logEntryBytes s tidx
  | .queue => queuePlaceBytes s tidx
  | .lastRun => lastRunBytes s

/-! ### The pointer and the copy -/

/-- TPTR advanced by one; at 255 it stays (R181). -/
def advancePointer (s : State) : State :=
  { s with bus := { s.bus with tptr := if s.bus.tptr = 0xFF then 0xFF else s.bus.tptr + 1 } }

/-- A copy taken of the record that TSEL and TIDX name, when TSEL selects a table that is read from a copy (R182). -/
def takeCopy (s : State) : State :=
  match tableOf s.bus.tsel with
  | none => s
  | some t => if t.copied then { s with bus := { s.bus with copy := recordBytes s t s.bus.tidx } } else s

/-- The byte a TDATA read returns (R180). -/
def tdataByte (s : State) : Byte :=
  match tableOf s.bus.tsel with
  | none => 0
  | some t => ((if t.copied then s.bus.copy else recordBytes s t s.bus.tidx)[s.bus.tptr.toNat]?).getD 0

/-- A read cycle of TDATA: at TPTR 0 a fresh copy, then the byte, then the advance (R180 to R182). -/
def readTdata (s : State) : Byte × State :=
  let s1 := if s.bus.tptr = 0 then takeCopy s else s
  (tdataByte s1, advancePointer s1)

/-! ### Writes -/

/-- A byte stored in the staging buffer at TPTR, unchecked; past byte 19 ignored (R4, R183). -/
def storeStaging (value : Byte) (s : State) : State :=
  { s with bus := { s.bus with staging := s.bus.staging.setIfInBounds s.bus.tptr.toNat value } }

/-- The write count grown by one; it stops at 255 (R85). -/
def countWrite (s : State) : State :=
  s.setWriteCount (if s.bus.writeCount = 0xFF then 0xFF else s.bus.writeCount + 1)

/-- A byte stored in the step slot of the DEFINING plan and counted, when TIDX names that plan and TPTR is 0 to 63; else ignored (R85). -/
def storeStep (value : Byte) (s : State) : State :=
  match s.store.defining with
  | none => s
  | some p =>
    if planOf s.bus.tidx = some p ∧ s.bus.tptr.toNat < 64 then
      countWrite (s.setPlan p { s.plan p with slot := (s.plan p).slot.setIfInBounds s.bus.tptr.toNat value })
    else s

/-- A write cycle to TDATA, judged by the selected table; TPTR advances all the same (R183, R181). -/
def writeTdata (value : Byte) (s : State) : State :=
  advancePointer
    (match tableOf s.bus.tsel with
      | some .staging => storeStaging value s
      | some .planSteps => storeStep value s
      | _ => s)

end Sys2Proof.Machine
end

