-- ==== Sys2Proof/Machine/Window.lean ====
section
/-! DEFINITION. The register window: the content of every location (R174, R184, R185 and the register map of spec/10), the write to
each location, and the row of the table that a bus cycle is (R173, R174). -/

namespace Sys2Proof.Machine

/-! ### Views -/

/-- The engine state code (spec/10). -/
def State.engineCode (s : State) : Byte :=
  match s.engine.run with
  | none => 0
  | some run =>
    match run.phase with
    | .quiet => 1
    | .waiting => 2
    | .held => 3

/-- The low byte of ENGST: engine state, run in progress, plan (spec/10). -/
def State.engstLow (s : State) : Byte :=
  match s.engine.run with
  | none => 0
  | some run => s.engineCode ||| 0x08 ||| byte (16 * run.plan.val)

/-- The step index as ENGST shows it: 0 in IDLE and in QUIET (R96, R184). -/
def State.stepShown (s : State) : Byte :=
  match s.engine.run with
  | none => 0
  | some run => if run.phase = .quiet then 0 else byte run.step.val

/-- PINST: the levels of KILL#, XF0#, XF1#, PWRREQ#, FLT# and SHED#, 1 while asserted (R184, spec/10). -/
def State.pinst (s : State) : Byte :=
  bitAt s.pins.kill 0 ||| bitAt s.pins.xf0 1 ||| bitAt s.pins.xf1 2 ||| bitAt s.pins.pwrreq 3 ||| bitAt s.log.flt 4
    ||| bitAt s.notify.shed 5

/-- ECFG as it reads: the PWRREQ plan or 0Fh, and the engine pin member at bit 7 (R188). -/
def State.ecfg (s : State) : Byte :=
  (match s.requests.pwrPlan with
    | some p => byte p.val
    | none => 0x0F) ||| bitAt s.requests.enginePin 7

/-- The content of every location of the window, at the present moment (R174, R184, R185, register map of spec/10). A location without a
register reads 0. The three locations whose reads do more are rows of their own; here stands the byte that they return. -/
def windowByte (s : State) (addr : Addr) : Byte :=
  match addr.toNat with
  | 0x00 => 0xA8
  | 0x01 => 0x02
  | 0x02 => s.notify.evt
  | 0x03 => s.notify.enables
  | 0x04 => s.notify.changed.extractLsb' 0 8
  | 0x05 => s.notify.changed.extractLsb' 8 8
  | 0x08 => s.bus.cmd
  | 0x09 => s.bus.res
  | 0x0A => s.bus.rdet
  | 0x0C => s.bus.arg0
  | 0x0D => s.bus.arg1
  | 0x0E => s.bus.arg2
  | 0x0F => s.bus.arg3
  | 0x10 => s.engstLow
  | 0x11 => s.bus.engstLatch
  | 0x12 => byte s.requests.queue.length
  | 0x13 => byte s.log.records.length
  | 0x14 => s.pinst
  | 0x15 => s.ecfg
  | 0x18 => s.bus.tsel
  | 0x19 => s.bus.tidx
  | 0x1A => s.bus.tptr
  | 0x1B => (readTdata s).1
  | 0x20 => byteOf s.log.uptime 0
  | 0x21 => s.bus.uptimeLatch.extractLsb' 0 8
  | 0x22 => s.bus.uptimeLatch.extractLsb' 8 8
  | 0x23 => s.bus.uptimeLatch.extractLsb' 16 8
  | _ => 0

/-- The byte of a read cycle: the content of the location at the start of the cycle, and 0 while RESET# is asserted (R173). -/
def readRegister (s : State) (addr : Addr) : Byte := if s.pins.inReset then 0 else windowByte s addr

/-- What the part drives on D0 to D7, from the levels of CS#, RD# and WR# (true when asserted) and A0 to A5: the byte of a read cycle, and nothing
in a write cycle, with CS# deasserted, with all three asserted, and with neither strobe (R173). -/
def busDrive (cs rd wr : Bool) (addr : Addr) (s : State) : Option Byte :=
  match cs, rd, wr with
  | true, true, false => some (readRegister s addr)
  | _, _, _ => none

/-! ### Reads that change something -/

/-- A read of UPT0: the low byte, and the three higher bytes copied into the uptime snapshot (R157). -/
def readUpt0 (s : State) : Byte × State :=
  (byteOf s.log.uptime 0, { s with bus := { s.bus with uptimeLatch := s.log.uptime.extractLsb' 8 24 } })

/-- A read of the low byte of ENGST: state and plan, and the step index copied into the ENGST latch (R175). -/
def readEngstLow (s : State) : Byte × State :=
  (s.engstLow, { s with bus := { s.bus with engstLatch := s.stepShown } })

/-! ### Writes -/

/-- A write to EVT: a position written 1 clears its flag; RAIL is a view and ignores the value (R162). -/
def writeEvt (value : Byte) (s : State) : State :=
  s.setNotify { s.notify with flags := s.notify.flags &&& ~~~value }.judge

/-- A write to EVEN: all eight enables replaced (R163). -/
def writeEven (value : Byte) (s : State) : State := s.setNotify { s.notify with enables := value }.judge

/-- The rails that a byte of RCHG0 or RCHG1 names (R167). -/
def railsWritten (upper : Bool) (value : Byte) : RailSet :=
  if upper then value.setWidth 16 <<< 8 else value.setWidth 16

/-- A write to RCHG0 or RCHG1: the rails written 1 leave the set (R167). -/
def writeRchg (upper : Bool) (value : Byte) (s : State) : State :=
  s.setNotify { s.notify with changed := s.notify.changed &&& ~~~(railsWritten upper value) }.judge

/-- A write to ECFG: both fields replaced, and FLT# recomputed (R130, R188, R158). -/
def writeEcfg (value : Byte) (s : State) : State :=
  recomputeFlt { s with
    requests := { s.requests with pwrPlan := planOf (value &&& 0x0F), enginePin := value.getLsbD 7 } }

/-- A write to TSEL; a copy when it selects a table that is read from a copy (R179, R182). -/
def writeTsel (value : Byte) (s : State) : State := takeCopy { s with bus := { s.bus with tsel := value } }

/-- A write to TIDX; a copy while such a table is selected (R179, R182). -/
def writeTidx (value : Byte) (s : State) : State := takeCopy { s with bus := { s.bus with tidx := value } }

/-- A write to TPTR; no copy is taken (R179, R182). -/
def writeTptr (value : Byte) (s : State) : State := { s with bus := { s.bus with tptr := value } }

/-- A code that names no command: BAD_COMMAND, with the code in RDET, and no block reached (R177 item 1). -/
def hostBadCommand (code : Byte) (s : State) : Verdict × State := ({ code := .badCommand, detail := code }, s)

/-- The judgement and work of each command by its owner (R177 item 2). -/
def ownerOf (c : Command) : State → Verdict × State :=
  match c with
  | .raise => hostRaise
  | .lower => hostLower
  | .clear => hostClear
  | .raiseGroup => hostRaiseGroup
  | .lowerGroup => hostLowerGroup
  | .clearGroup => hostClearGroup
  | .loadRail => hostLoadRail
  | .writeRail => hostWriteRail
  | .define => hostDefine
  | .commit => hostCommit
  | .erase => hostErase
  | .run => hostRun
  | .cancel => hostCancel
  | .release => hostRelease
  | .abort => hostAbort
  | .logPop => hostLogPop
  | .shedAck => hostShedAck
  | .engineReset => hostEngineReset

/-- A write of any code to CMD (R176, R177). -/
def writeCmd (code : Byte) (s : State) : State :=
  match commandOf code with
  | some c => hostCommand code (ownerOf c) s
  | none => hostCommand code (hostBadCommand code) s

/-- An operand register written: the byte stored as written (R176). -/
def writeArg (i : Fin 4) (value : Byte) (s : State) : State :=
  match i with
  | 0 => { s with bus := { s.bus with arg0 := value } }
  | 1 => { s with bus := { s.bus with arg1 := value } }
  | 2 => { s with bus := { s.bus with arg2 := value } }
  | 3 => { s with bus := { s.bus with arg3 := value } }

/-- A write cycle to any location (R174). The rows of the table with a write of their own act as those rows do; ARG0 to ARG3 and TPTR
store the byte as written (R176, R179); a read-only register and a location without a register ignore it. -/
def writeLocation (addr : Addr) (value : Byte) (s : State) : State :=
  match addr.toNat with
  | 0x02 => busWrite (writeEvt value) s
  | 0x03 => busWrite (writeEven value) s
  | 0x04 => busWrite (writeRchg false value) s
  | 0x05 => busWrite (writeRchg true value) s
  | 0x08 => writeCmd value s
  | 0x0C => busWrite (writeArg 0 value) s
  | 0x0D => busWrite (writeArg 1 value) s
  | 0x0E => busWrite (writeArg 2 value) s
  | 0x0F => busWrite (writeArg 3 value) s
  | 0x15 => busWrite (writeEcfg value) s
  | 0x18 => busWrite (writeTsel value) s
  | 0x19 => busWrite (writeTidx value) s
  | 0x1A => busWrite (writeTptr value) s
  | 0x1B => busWrite (writeTdata value) s
  | _ => s

/-! ### Bus cycles -/

/-- The row that a write to CMD is (R177). -/
def rowOfCode (code : Byte) : Instr :=
  match commandOf code with
  | none => .badCommand code
  | some c =>
    match c with
    | .raise => .raise
    | .lower => .lower
    | .clear => .clear
    | .raiseGroup => .raiseGroup
    | .lowerGroup => .lowerGroup
    | .clearGroup => .clearGroup
    | .loadRail => .loadRail
    | .writeRail => .writeRail
    | .define => .define
    | .commit => .commit
    | .erase => .erase
    | .run => .run
    | .cancel => .cancel
    | .release => .release
    | .abort => .abort
    | .logPop => .logPop
    | .shedAck => .shedAck
    | .engineReset => .engineReset

/-- The row that a write cycle to a location is (R174). -/
def rowOfWrite (addr : Addr) (value : Byte) : Instr :=
  match addr.toNat with
  | 0x02 => .evtWrite value
  | 0x03 => .evenWrite value
  | 0x04 => .rchgWrite false value
  | 0x05 => .rchgWrite true value
  | 0x08 => rowOfCode value
  | 0x15 => .ecfgWrite value
  | 0x18 => .tselWrite value
  | 0x19 => .tidxWrite value
  | 0x1B => .tdataWrite value
  | _ => .registerWrite addr value

/-- The row that a read cycle of a location is: three reads change something, the others nothing (R174). -/
def rowOfRead (addr : Addr) : Option Instr :=
  match addr.toNat with
  | 0x10 => some .engstLowRead
  | 0x1B => some .tdataRead
  | 0x20 => some .upt0Read
  | _ => none

/-- The row that a bus cycle is, from the levels of CS#, RD# and WR# (true when asserted), A0 to A5 and D0 to D7 (R173). With CS# deasserted,
with all three asserted, and with neither strobe, no cycle is taken. A read cycle without a row changes nothing; `busDrive` gives the byte that any
read cycle drives. -/
def busCycle (cs rd wr : Bool) (addr : Addr) (data : Byte) : Option Instr :=
  match cs, rd, wr with
  | true, true, false => rowOfRead addr
  | true, false, true => some (rowOfWrite addr data)
  | _, _, _ => none

/-- The bus cycle that a row is: whether it is a write, its address, and the byte written (0 for a read); none for a row that is no bus cycle
(R174, register map and command codes of spec/10). -/
def cycleOf (i : Instr) : Option (Bool × Addr × Byte) :=
  match i with
  | .raise => some (true, 0x08, 0x01)
  | .lower => some (true, 0x08, 0x02)
  | .clear => some (true, 0x08, 0x03)
  | .raiseGroup => some (true, 0x08, 0x04)
  | .lowerGroup => some (true, 0x08, 0x05)
  | .clearGroup => some (true, 0x08, 0x06)
  | .loadRail => some (true, 0x08, 0x08)
  | .writeRail => some (true, 0x08, 0x09)
  | .define => some (true, 0x08, 0x10)
  | .commit => some (true, 0x08, 0x11)
  | .erase => some (true, 0x08, 0x12)
  | .run => some (true, 0x08, 0x18)
  | .cancel => some (true, 0x08, 0x19)
  | .release => some (true, 0x08, 0x1A)
  | .abort => some (true, 0x08, 0x1B)
  | .logPop => some (true, 0x08, 0x20)
  | .shedAck => some (true, 0x08, 0x21)
  | .engineReset => some (true, 0x08, 0x30)
  | .badCommand code => some (true, 0x08, code)
  | .evtWrite v => some (true, 0x02, v)
  | .evenWrite v => some (true, 0x03, v)
  | .rchgWrite upper v => some (true, if upper then 0x05 else 0x04, v)
  | .ecfgWrite v => some (true, 0x15, v)
  | .tselWrite v => some (true, 0x18, v)
  | .tidxWrite v => some (true, 0x19, v)
  | .tdataRead => some (false, 0x1B, 0)
  | .tdataWrite v => some (true, 0x1B, v)
  | .upt0Read => some (false, 0x20, 0)
  | .engstLowRead => some (false, 0x10, 0)
  | .registerWrite addr v => some (true, addr, v)
  | .powerOnReset => none
  | .resetAssertion => none
  | .resetDeassertion => none
  | .killAssertionEdge => none
  | .killDeassertionEdge => none
  | .xfAssertionEdge _ => none
  | .xfDeassertionEdge _ => none
  | .pwrreqFallingEdge => none
  | .pwrreqRisingEdge => none
  | .zoneArrival _ _ _ => none
  | .overCurrentArrival _ _ _ => none
  | .rampExpiry _ => none
  | .settleExpiry _ => none
  | .dischargeExpiry _ => none
  | .backfeedFilterExpiry _ => none
  | .uvFilterExpiry _ => none
  | .ocFilterExpiry _ => none
  | .retryExpiry _ => none
  | .quietExpiry => none
  | .stepTimerExpiry => none
  | .holdExpiry => none
  | .uptimeTick => none

/-- The row that the bus cycle of a row spells again: the strobes of a write or of a read at its address (R173). -/
def rowOfCycle (x : Bool × Addr × Byte) : Option Instr := busCycle true (!x.1) x.1 x.2.1 x.2.2

end Sys2Proof.Machine
end

