-- ==== Sys2Proof/Machine/RegisterCycles.lean ====
section
/-! DEFINITION. The rows that are bus cycles other than the eighteen commands: BAD_COMMAND, the writes and reads of registers that act, and
the write to every other location (R162, R163, R167, R130, R157, R174 to R183). -/

namespace Sys2Proof.Machine

/-- BAD_COMMAND: CMD written with a code that names no command (R177). A code that names one acts as that command (log entry 16). -/
def execBadCommand (code : Byte) (s : State) : Host.Outcome State Fault Refusal := .next (writeCmd code s)

/-- EVT_WRITE (R162). -/
def execEvtWrite (value : Byte) (s : State) : Host.Outcome State Fault Refusal := .next (busWrite (writeEvt value) s)

/-- EVEN_WRITE (R163). -/
def execEvenWrite (value : Byte) (s : State) : Host.Outcome State Fault Refusal := .next (busWrite (writeEven value) s)

/-- RCHG_WRITE (R167). -/
def execRchgWrite (upper : Bool) (value : Byte) (s : State) : Host.Outcome State Fault Refusal :=
  .next (busWrite (writeRchg upper value) s)

/-- ECFG_WRITE (R130, R188). -/
def execEcfgWrite (value : Byte) (s : State) : Host.Outcome State Fault Refusal := .next (busWrite (writeEcfg value) s)

/-- TSEL_WRITE (R179, R182). -/
def execTselWrite (value : Byte) (s : State) : Host.Outcome State Fault Refusal := .next (busWrite (writeTsel value) s)

/-- TIDX_WRITE (R179, R182). -/
def execTidxWrite (value : Byte) (s : State) : Host.Outcome State Fault Refusal := .next (busWrite (writeTidx value) s)

/-- TDATA_READ (R180 to R182). -/
def execTdataRead (s : State) : Host.Outcome State Fault Refusal := .next (busRead readTdata s)

/-- TDATA_WRITE (R183). -/
def execTdataWrite (value : Byte) (s : State) : Host.Outcome State Fault Refusal := .next (busWrite (writeTdata value) s)

/-- UPT0_READ (R157). -/
def execUpt0Read (s : State) : Host.Outcome State Fault Refusal := .next (busRead readUpt0 s)

/-- ENGST_LOW_READ (R175). -/
def execEngstLowRead (s : State) : Host.Outcome State Fault Refusal := .next (busRead readEngstLow s)

/-- REGISTER_WRITE (R174, R176, R179). An address whose write is a row of its own acts as that row (log entry 16). -/
def execRegisterWrite (addr : Addr) (value : Byte) (s : State) : Host.Outcome State Fault Refusal :=
  .next (writeLocation addr value s)

end Sys2Proof.Machine
end

