-- ==== Sys2Proof/Machine/Dispatch.lean ====
section
/-! DEFINITION. The meaning of every command: one arm per row of spec/opcode_table.json. -/

namespace Sys2Proof.Machine

/-- The effect of a command on the part. -/
def exec (i : Instr) (s : State) : Host.Outcome State Fault Refusal :=
  match i with
  | .raise => Sys2Proof.Machine.execRaise s
  | .lower => Sys2Proof.Machine.execLower s
  | .clear => Sys2Proof.Machine.execClear s
  | .raiseGroup => Sys2Proof.Machine.execRaiseGroup s
  | .lowerGroup => Sys2Proof.Machine.execLowerGroup s
  | .clearGroup => Sys2Proof.Machine.execClearGroup s
  | .loadRail => Sys2Proof.Machine.execLoadRail s
  | .writeRail => Sys2Proof.Machine.execWriteRail s
  | .define => Sys2Proof.Machine.execDefine s
  | .commit => Sys2Proof.Machine.execCommit s
  | .erase => Sys2Proof.Machine.execErase s
  | .run => Sys2Proof.Machine.execRun s
  | .cancel => Sys2Proof.Machine.execCancel s
  | .release => Sys2Proof.Machine.execRelease s
  | .abort => Sys2Proof.Machine.execAbort s
  | .logPop => Sys2Proof.Machine.execLogPop s
  | .shedAck => Sys2Proof.Machine.execShedAck s
  | .engineReset => Sys2Proof.Machine.execEngineReset s
  | .badCommand code => Sys2Proof.Machine.execBadCommand code s
  | .evtWrite value => Sys2Proof.Machine.execEvtWrite value s
  | .evenWrite value => Sys2Proof.Machine.execEvenWrite value s
  | .rchgWrite upper value => Sys2Proof.Machine.execRchgWrite upper value s
  | .ecfgWrite value => Sys2Proof.Machine.execEcfgWrite value s
  | .tselWrite value => Sys2Proof.Machine.execTselWrite value s
  | .tidxWrite value => Sys2Proof.Machine.execTidxWrite value s
  | .tdataRead => Sys2Proof.Machine.execTdataRead s
  | .tdataWrite value => Sys2Proof.Machine.execTdataWrite value s
  | .upt0Read => Sys2Proof.Machine.execUpt0Read s
  | .engstLowRead => Sys2Proof.Machine.execEngstLowRead s
  | .registerWrite addr value => Sys2Proof.Machine.execRegisterWrite addr value s
  | .powerOnReset => Sys2Proof.Machine.execPowerOnReset s
  | .resetAssertion => Sys2Proof.Machine.execResetAssertion s
  | .resetDeassertion => Sys2Proof.Machine.execResetDeassertion s
  | .killAssertionEdge => Sys2Proof.Machine.execKillAssertionEdge s
  | .killDeassertionEdge => Sys2Proof.Machine.execKillDeassertionEdge s
  | .xfAssertionEdge input => Sys2Proof.Machine.execXfAssertionEdge input s
  | .xfDeassertionEdge input => Sys2Proof.Machine.execXfDeassertionEdge input s
  | .pwrreqFallingEdge => Sys2Proof.Machine.execPwrreqFallingEdge s
  | .pwrreqRisingEdge => Sys2Proof.Machine.execPwrreqRisingEdge s
  | .zoneArrival rail zone mv => Sys2Proof.Machine.execZoneArrival rail zone mv s
  | .overCurrentArrival rail asserted ma => Sys2Proof.Machine.execOverCurrentArrival rail asserted ma s
  | .rampExpiry rail => Sys2Proof.Machine.execRampExpiry rail s
  | .settleExpiry rail => Sys2Proof.Machine.execSettleExpiry rail s
  | .dischargeExpiry rail => Sys2Proof.Machine.execDischargeExpiry rail s
  | .backfeedFilterExpiry rail => Sys2Proof.Machine.execBackfeedFilterExpiry rail s
  | .uvFilterExpiry rail => Sys2Proof.Machine.execUvFilterExpiry rail s
  | .ocFilterExpiry rail => Sys2Proof.Machine.execOcFilterExpiry rail s
  | .retryExpiry rail => Sys2Proof.Machine.execRetryExpiry rail s
  | .quietExpiry => Sys2Proof.Machine.execQuietExpiry s
  | .stepTimerExpiry => Sys2Proof.Machine.execStepTimerExpiry s
  | .holdExpiry => Sys2Proof.Machine.execHoldExpiry s
  | .uptimeTick => Sys2Proof.Machine.execUptimeTick s

end Sys2Proof.Machine
end

