-- ==== Sys2Proof/Safety.lean ====
section
/-! DEFINITION. What claims about the part speak of: the laws that stand between two events, each from a rule that states it, and the
forms in which a command's outcome is told. -/

namespace Sys2Proof.Machine

/-! ### Laws of a rail -/

/-- The outputs that a state fixes (R9). In FAULTED and LOCKED, DIS is on in the discharge phase and off after it; in the other states there
is no discharge phase (R11). -/
def RailChan.outputsLaw (c : RailChan) : Prop :=
  c.en = c.state.active
    ∧ c.dis = (c.state == .lowering || c.discharging)
    ∧ (c.discharging = true → c.state = .faulted ∨ c.state = .locked)

/-- Where each timer of a rail may run (01 The rail timers; R50, R56). -/
def RailChan.timersLaw (c : RailChan) : Prop :=
  (c.rampT ≠ none → c.state = .ramping)
    ∧ (c.settleT ≠ none → c.state = .ramping ∧ c.zone = .good)
    ∧ (c.dischargeT ≠ none → c.state = .lowering ∨ c.discharging = true)
    ∧ (c.backfeedT ≠ none → c.state = .off)
    ∧ (c.uvT ≠ none → c.state = .on)
    ∧ (c.ocT ≠ none → c.state.active = true)
    ∧ (c.retryT ≠ none → c.state = .faulted ∧ c.discharging = false)

/-- The laws of the retry count (R54). -/
def RailChan.retryLaw (c : RailChan) : Prop :=
  c.retries ≤ c.cfg.retryLimit
    ∧ (c.state = .faulted → c.cfg.response = .retry ∧ c.retries < c.cfg.retryLimit)
    ∧ (c.cfg.response ≠ .retry → c.retries = 0)

/-- Latched kinds stand only on a rail that is FAULTED or LOCKED (R63 item 2), and BACKFEED is never among them (02 Clearing a rail). -/
def RailChan.latchedLaw (c : RailChan) : Prop :=
  (c.latched ≠ 0 → c.state = .faulted ∨ c.state = .locked)
    ∧ (c.firstKind = none ↔ c.latched = 0)
    ∧ hasKind c.latched FaultKind.backfeed.code = false

/-- Every rail obeys a law of rails. -/
def State.everyRail (s : State) (law : RailChan → Prop) : Prop := ∀ r : Rail, law (s.rail r)

/-! ### Laws of the network -/

/-- Each parent of a rail has a lower number than the rail (R58). -/
def State.parentsBelow (s : State) : Prop := ∀ r p : Rail, p ∈ (s.rail r).cfg.parents → p < r

/-- A rail is in RAMPING or ON only while each of its parents is ON (R61). -/
def State.parentsOn (s : State) : Prop :=
  ∀ r p : Rail, (s.rail r).state.active = true → p ∈ (s.rail r).cfg.parents → (s.rail p).state = .on

/-! ### Laws of the reporting side -/

/-- INT# is asserted exactly while some event flag is set together with its enable (R164). -/
def State.intLaw (s : State) : Prop := s.notify.int = true ↔ s.notify.evt &&& s.notify.enables ≠ 0

/-- FLT# is asserted exactly while the log holds a record whose source is a pin member (R158). -/
def State.fltLaw (s : State) : Prop := s.log.flt = true ↔ ∃ x ∈ s.log.records, s.pinMember x.subject = true

/-- At most one record of each source (R146). -/
def FaultLog.oneEach (l : FaultLog) : Prop := (l.records.map (fun x => x.subject.source)).Nodup

/-- A repeat count of 1 to 15, kinds seen that hold the first kind, and the cause rail of a record opened by a cascade alone (R146 to R148). -/
def LogRecord.law (x : LogRecord) : Prop :=
  1 ≤ x.repeats ∧ x.repeats ≤ 15 ∧ hasKind x.seen x.subject.firstCode = true
    ∧ (∀ r k st cause, x.subject = .rail r k st (some cause) → k = .cascade)

/-- The laws of the fault log (R146, R147). -/
def State.logLaw (s : State) : Prop := s.log.oneEach ∧ ∀ x ∈ s.log.records, x.law

/-- Outside a reset the SHED latch is set whenever KILL# is asserted or a shed member is FAULTED or LOCKED (R170). -/
def State.shedLaw (s : State) : Prop :=
  s.pins.inReset = false →
    (s.pins.kill = true
      ∨ ∃ r : Rail, (s.rail r).cfg.shedMember = true ∧ ((s.rail r).state = .faulted ∨ (s.rail r).state = .locked)) →
    s.notify.shed = true

/-! ### Laws of the run side -/

/-- The plan store's marker names exactly the DEFINING plan; a plan that is not EMPTY has a length of 1 to 16 and does not name itself as its
unwind plan; the write count is 0 while no plan is DEFINING (R77, R83 to R85). -/
def State.storeLaw (s : State) : Prop :=
  (∀ p : PlanNo, (s.plan p).state = .defining ↔ s.store.defining = some p)
    ∧ (∀ p : PlanNo, (s.plan p).state ≠ .empty →
        1 ≤ (s.plan p).length ∧ (s.plan p).length ≤ 16 ∧ (s.plan p).unwind ≠ some p)
    ∧ (s.store.defining = none → s.bus.writeCount = 0)

/-- The laws that the queue and the slot keep (R126, R145), and the plan of the run in progress READY (R82): four entries at most, never two of
one plan; every plan queued, waiting in the slot or running is READY; the slot holds a request only while an URGENT run is in progress, and an
IDLE engine leaves both empty. -/
def State.runLaw (s : State) : Prop :=
  s.requests.queue.length ≤ 4
    ∧ (s.requests.queue.map QueueEntry.plan).Nodup
    ∧ (∀ e ∈ s.requests.queue, s.ready e.plan = true)
    ∧ (∀ q, s.requests.slot = some q → s.ready q.plan = true)
    ∧ (∀ run, s.engine.run = some run → s.ready run.plan = true)
    ∧ (∀ q, s.requests.slot = some q → ∃ run, s.engine.run = some run ∧ run.role = .urgent)
    ∧ (s.engine.run = none → s.requests.queue = [])

/-- No rail active or FAULTED, the engine IDLE, nothing queued, nothing in the slot (R74). -/
def State.down (s : State) : Prop :=
  (∀ r : Rail, (s.rail r).state.active = false ∧ (s.rail r).state ≠ .faulted)
    ∧ s.engine.run = none ∧ s.requests.queue = [] ∧ s.requests.slot = none

/-- While KILL# is asserted nothing is up and nothing runs (R74). -/
def State.killLaw (s : State) : Prop := s.pins.kill = true → s.down

/-- While RESET# is asserted every block stands at its reset values; only the inputs, and what a read drives, may move (R2, R78, R96,
R160, R172, R173, R186). -/
def State.heldLaw (s : State) : Prop :=
  s.pins.inReset = true →
    (∀ r : Rail, s.rail r = RailChan.atReset (s.rail r).zone (s.rail r).overCurrent (s.rail r).senseMv (s.rail r).senseMa)
      ∧ s.store = PlanStore.reset ∧ s.engine = Engine.reset ∧ s.requests = RequestUnit.reset
      ∧ s.log = FaultLog.reset ∧ s.notify = Notify.held
      ∧ s.bus = { HostBus.reset with lastRead := s.bus.lastRead }

/-- What a reset leaves, with the notification unit as given: every block at its reset values, each front end holding what it finds
at its sense inputs against the reset levels, the waiting commands kept (R2, R11, R78, R96, R126, R160, R172, R186). -/
def State.resetTo (s t : State) (n : Notify) : Prop :=
  (∀ r : Rail, ∃ z oc, t.rail r = RailChan.atReset z oc (s.rail r).senseMv (s.rail r).senseMa
      ∧ (outsideBands RailCfg.reset (s.rail r).senseMv = true → z = zoneOf RailCfg.reset (s.rail r).senseMv)
      ∧ (withinLimitBand RailCfg.reset (s.rail r).senseMa = false → oc = overCurrentOf RailCfg.reset (s.rail r).senseMa))
    ∧ t.store = PlanStore.reset ∧ t.engine = Engine.reset ∧ t.requests = RequestUnit.reset
    ∧ t.log = FaultLog.reset ∧ t.notify = n ∧ t.bus = HostBus.reset ∧ t.pending = s.pending

/-! ### Outcomes of commands -/

/-- The window after a command: the code in CMD, the result in RES, the detail in RDET, and nothing else of the interface changed (R176 to
R178). -/
def State.window (s : State) (code res detail : Byte) : State :=
  { s with bus := { s.bus with cmd := code, res := res, rdet := detail } }

/-- The part after a refused command: the window, and the REFUSED flag with INT# judged on it (R177, R161, R164). -/
def State.refusedWith (s : State) (code res detail : Byte) : State :=
  setFlag .refused (s.window code res detail)

/-! ### Changes of rails and who is told -/

/-- A QUIET engine that is told of a rail change starts its quiet timer afresh; in its other states the engine keeps its timers
(R97, R99). -/
def State.quietAfresh (s : State) : State :=
  match s.engine.run with
  | some run =>
    if run.phase = .quiet then s.setEngineTimers (startTimer s.now (s.plan run.plan).quiet) s.engine.stepT s.engine.holdT else s
  | none => s

/-- A set of rails joins the rail change set, and INT# is judged (R164, R166). -/
def State.joined (s : State) (x : RailSet) : State :=
  if x = 0 then s else s.setNotify { s.notify with changed := s.notify.changed ||| x }.judge

/-- The changes of a set of rails handed on: they join the rail change set, INT# is judged, and a QUIET engine starts its quiet timer
afresh (R10, R97, R166). -/
def State.told (s : State) (x : RailSet) : State := if x = 0 then s else (s.joined x).quietAfresh

/-- A rail that has changed state, its change handed on (R10). -/
def State.changedRail (s : State) (r : Rail) (c : RailChan) : State := (s.setRail r c).told (RailSet.add 0 r)

/-- Several rails replaced at once. -/
def State.mapRails (s : State) (l : List Rail) (f : Rail → RailChan) : State :=
  { s with rails := Vector.ofFn (fun r => if l.contains r then f r else s.rail r) }

/-- The step in progress does not wait on rail r: no run is WAITING, or its step is no AWAIT, or r is not in its selection (R97, R104). -/
def State.unawaited (s : State) (r : Rail) : Bool :=
  match s.engine.run with
  | none => true
  | some run =>
    run.phase != .waiting || !((s.stepRec run run.step.val).kind.any StepKind.awaits) || !RailSet.has run.selection r

/-- Every parent of a rail is ON (R59). -/
abbrev State.allParentsOn (s : State) (r : Rail) : Prop := ∀ p ∈ (s.rail r).cfg.parents, (s.rail p).state = .on

/-- Rail p is the lowest-numbered parent of rail r that is not ON (R59). -/
abbrev State.lowestParentNotOn (s : State) (r p : Rail) : Prop :=
  p ∈ (s.rail r).cfg.parents ∧ (s.rail p).state ≠ .on
    ∧ ∀ q ∈ (s.rail r).cfg.parents, q < p → (s.rail q).state = .on

/-- Rail x names rail r as a parent and is RAMPING or ON (R60). -/
abbrev State.childActive (s : State) (r x : Rail) : Prop := r ∈ (s.rail x).cfg.parents ∧ (s.rail x).state.active = true

/-- A rail is an ancestor of another: its parent, or the parent of an ancestor (00 Terms; R62). -/
inductive State.Ancestor (s : State) : Rail → Rail → Prop where
  | parent {a x : Rail} : a ∈ (s.rail x).cfg.parents → State.Ancestor s a x
  | step {a b x : Rail} : State.Ancestor s a b → b ∈ (s.rail x).cfg.parents → State.Ancestor s a x

/-! ### What a rail becomes -/

/-- A rail whose front end has reported a zone for a sensed voltage (R28), remembering where the voltage stood (R187). -/
def RailChan.saw (c : RailChan) (z : Zone) (mv : Nat) : RailChan := { ({ c with senseMv := mv }).noteZone z with zone := z }

/-- A rail whose front end has reported its flag for a sensed current (R29), remembering where the current stood (R187). -/
def RailChan.sawFlag (c : RailChan) (asserted : Bool) (ma : Nat) : RailChan :=
  { ({ c with senseMa := ma }).noteFlag asserted with overCurrent := asserted }

/-- A rail that has entered RAMPING by a RAISE with its voltage at ZERO and no fault standing: EN on, DIS off, retry count 0, the ramp
timer started, the four kinds armed, no other timer but the OC filter, which runs when the flag stands and OC is in the set (R14, R17, R33,
R40). -/
def RailChan.raised (now : Uptime) (c : RailChan) : RailChan :=
  { c with state := .ramping, en := true, dis := false, discharging := false, retries := 0
           armOv := true, armUv := true, armOc := true, armExt := true
           rampT := startTimer now c.cfg.rampLimit
           ocT := if c.cfg.detect.oc = true ∧ c.overCurrent = true then startTimer now c.cfg.filterTime else none
           settleT := none, dischargeT := none, backfeedT := none, uvT := none, retryT := none }

/-- No fault stands that a rail entering RAMPING would declare at once: no over-current flag that is in the set without a filter
time, no asserted bound input with EXT in the set (R40). -/
def State.nothingStands (s : State) (r : Rail) : Bool :=
  !((s.rail r).cfg.detect.oc && (s.rail r).overCurrent && (s.rail r).cfg.filterTime == 0)
    && !((s.rail r).cfg.detect.ext && s.boundAsserted r)

/-- A rail that has gone OFF: outputs off, every timer stopped, the backfeed filter armed (R9, R22, R26). -/
def RailChan.wentOff (c : RailChan) : RailChan :=
  { c with state := .off, en := false, dis := false, discharging := false, armBackfeed := true
           rampT := none, settleT := none, dischargeT := none, backfeedT := none, uvT := none, ocT := none, retryT := none }

/-- A rail that has been lowered: OFF at once when its voltage is ZERO; else LOWERING, EN off, DIS on, the discharge timer started, the timers
of RAMPING and ON cancelled (R15, R21, R22, R37). -/
def RailChan.lowered (now : Uptime) (c : RailChan) : RailChan :=
  if c.zone = .zero then c.wentOff
  else
    { c with state := .lowering, en := false, dis := true
             dischargeT := startTimer now (10 * c.cfg.dischargeLimit)
             rampT := none, settleT := none, uvT := none, ocT := none }

/-- A rail that has been cleared: OFF with nothing latched (R16). -/
def RailChan.cleared (c : RailChan) : RailChan := { c.wentOff with latched := 0, firstKind := none }

/-- A rail cut from RAMPING or ON into a state by a kind: EN off, the timers of RAMPING and ON cancelled, the kind latched; with voltage above
ZERO the discharge phase begins, at ZERO there is none and a FAULTED rail starts its retry timer (R43, R45, R50, R63). -/
def RailChan.cut (now : Uptime) (st : RailState) (k : FaultKind) (c : RailChan) : RailChan :=
  { c with state := st, en := false
           dis := c.zone != .zero, discharging := c.zone != .zero
           dischargeT := if c.zone = .zero then none else startTimer now (10 * c.cfg.dischargeLimit)
           rampT := none, settleT := none, uvT := none, ocT := none
           retryT := if c.zone = .zero ∧ st = .faulted then startTimer now (10 * c.cfg.retryInterval) else c.retryT
           latched := c.latched ||| kindBit k.code
           firstKind := if c.latched = 0 then some k else c.firstKind }

/-- The state that a fault of a rail's own leads to under LATCH and RETRY (R32). -/
def RailChan.faultState (c : RailChan) : RailState :=
  if c.cfg.response = .retry ∧ c.retries < c.cfg.retryLimit then .faulted else .locked

/-! ### Answers to rails of a group -/

/-- The refusal that a RAISE of a rail gives, or none (R14). -/
def State.raiseRefusal (s : State) (r : Rail) : Option Result :=
  match (s.rail r).state with
  | .off =>
    if (s.rail r).cfg.parents.any (fun p => (s.rail p).state != .on) then some .parentNotOn
    else if (s.rail r).zone ≠ .zero then some .backfeedPresent
    else if s.pins.kill then some .killed
    else none
  | .ramping | .on => none
  | _ => some .state

/-- The kind whose condition stands against a CLEAR, in the order OV, OC, EXT (R16). -/
def State.standing (s : State) (r : Rail) : Option FaultKind :=
  if (s.rail r).latched.getLsbD 0 ∧ (s.rail r).zone = .high then some .ov
  else if (s.rail r).latched.getLsbD 2 ∧ (s.rail r).overCurrent = true then some .oc
  else if (s.rail r).latched.getLsbD 3 ∧ s.boundAsserted r = true then some .ext
  else none

/-- The refusal that a CLEAR of a rail gives, or none (R16). -/
def State.clearRefusal (s : State) (r : Rail) : Option Result :=
  match (s.rail r).state with
  | .faulted | .locked =>
    if (s.standing r).isSome then some .conditionPresent
    else if (s.rail r).zone ≠ .zero then some .notDischarged
    else none
  | .off => none
  | _ => some .state

/-- A rail that LOWER refuses with STATE (R15). -/
def RailState.notLowerable (st : RailState) : Bool := st == .unused || st == .faulted || st == .locked

/-! ### Records and steps by their bytes -/

/-- The copy that the table port takes for TSEL and TIDX: of RAIL_STATUS the rail's status, or bytes that read 0 when TIDX names no rail; of LOG,
QUEUE and LAST_RUN the record, the entry, the slot or the report, or its absent form (R113, R134, R153, R180, R182, R191). -/
def State.copyNamed (s : State) (tsel tidx : Byte) (copy : List Byte) : Prop :=
  (tsel.toNat = 3 →
      (∀ r : Rail, tidx = railByte r → copy = statusBytes (s.rail r)) ∧ (16 ≤ tidx.toNat → ∀ i : Nat, i < 256 → (copy[i]?).getD 0 = 0))
    ∧ (tsel.toNat = 6 →
      (∀ x : LogRecord, s.log.records[tidx.toNat]? = some x → copy = logBytes x)
      ∧ (s.log.records.length ≤ tidx.toNat → copy = [0xFF, 0, 0, 0, 0, 0, 0, 0, 0, 0, 0, 0, 0, 0, 0, 0]))
    ∧ (tsel.toNat = 7 →
      (tidx.toNat < 4 →
        (∀ e : QueueEntry, s.requests.queue[tidx.toNat]? = some e → copy = queueBytes e)
        ∧ (s.requests.queue.length ≤ tidx.toNat → copy = [0xFF, 0, 0, 0xFF]))
      ∧ (tidx.toNat = 4 →
        (∀ q : PlanRequest, s.requests.slot = some q → copy = slotBytes q) ∧ (s.requests.slot = none → copy = [0xFF, 0, 0, 0xFF]))
      ∧ (4 < tidx.toNat → copy = [0xFF, 0, 0, 0xFF]))
    ∧ (tsel.toNat = 8 →
      (∀ x : Report, s.engine.report = some x → copy = reportBytes x)
      ∧ (s.engine.report = none → copy = [0xFF, 0, 0, 0, 0, 0, 0xFF, 0]))

/-- A configuration byte that names a rail 0 to 15 or, as FFh, none (R189). -/
def railField (b : Byte) : Bool := decide (b.toNat < 16) || b == 0xFF

/-- Whether check n of R7 fails for a WRITE_RAIL of rail r, read off the bytes of the staging buffer (R7, R189). -/
def State.checkFails (s : State) (r : Rail) (n : Nat) : Bool :=
  let v := s.bus.staging
  let levels := [pairNat v[4] v[5], pairNat v[6] v[7], pairNat v[8] v[9]]
  match n with
  | 1 => levels.any (fun x => x == 0 || decide (20000 < x))
  | 2 => decide (pairNat v[6] v[7] ≤ pairNat v[4] v[5]) || decide (pairNat v[8] v[9] ≤ pairNat v[6] v[7])
  | 3 =>
    !(decide (v[0].toNat < 8) && decide (v[1].toNat < 16) && railField v[2] && railField v[3]
      && v[10] != 0 && v[11] != 0 && v[13] != 0 && decide (v[14].toNat < 16) && decide (v[15].toNat < 32)
      && v[16].toNat % 4 != 3 && v[16].toNat / 4 % 4 == 0 && v[16].toNat / 16 % 4 != 3 && v[16].toNat / 64 == 0
      && decide (v[17].toNat < 8) && v[18] != 0 && (decide (v[19].toNat < 8) || v[19] == 0xFF))
  | 4 => [v[2], v[3]].any (fun b => decide (b.toNat < 16) && decide (r.val ≤ b.toNat))
  | 5 => v[3] != 0xFF && (v[2] == 0xFF || v[3] == v[2])
  | 6 => [v[2], v[3]].any (fun b => (railOf b).any (fun p => (s.rail p).state == .unused))
  | 7 => v[15].getLsbD 3 && v[16].toNat % 4 == 0
  | 8 => v[16].toNat / 16 % 4 == 2 && v[17] == 0
  | _ => false

/-- Every check of R7 passes. -/
def State.checksPass (s : State) (r : Rail) : Bool := (List.range 9).all (fun n => !s.checkFails r n)

/-- Whether a step is bad by its first three bytes: a kind that is none of 1 to 7, a kind with a target whose single rail is above 15, or an AWAIT or
PAUSE with time 0 (R88, R190). -/
def badStepBytes (b0 b1 b2 : Byte) : Bool :=
  let kind := b0.toNat % 16
  kind == 0 || decide (7 < kind) || (decide (kind < 6) && !b0.getLsbD 6 && decide (15 < b1.toNat))
    || (decide (4 ≤ kind ∧ kind ≤ 6) && b2 == 0)

/-! ### Runs -/

/-- The last-run report of a run that ends with an outcome other than FAILED (R113). -/
def Run.ended (run : Run) (o : RunOutcome) : Report where
  plan := run.plan
  role := run.role
  origin := run.origin
  tag := if run.origin = .host then run.tag else none
  outcome := o
  reason := .none
  failingStep := if o = .done ∨ run.phase = .quiet then none else some run.step
  refusal := none

/-- The last-run report of a run that fails at its step for a reason that is no refusal (R113). -/
def Run.failedFor (run : Run) (reason : Reason) : Report :=
  { run.ended .failed with reason := reason, failingStep := some run.step }

/-- An engine that has gone IDLE after a report (R112, R118). -/
def State.idleAfter (s : State) (x : Report) : State :=
  { s with engine := { run := none, quietT := none, stepT := none, holdT := none, report := some x } }

/-- No run waits in the slot or the queue. -/
def State.noneWaiting (s : State) : Bool := s.requests.slot.isNone && s.requests.queue.isEmpty

/-- A NORMAL run of a plan in QUIET, for an entry of the queue, its quiet timer started (R98). -/
def State.quietRun (s : State) (e : QueueEntry) : State :=
  { s with engine :=
      { s.engine with
          run := some { phase := .quiet, plan := e.plan, role := .normal, origin := e.origin, tag := e.tag, step := 0, selection := 0,
                        failedPlan := none, failingStep := none }
          quietT := startTimer s.now (s.plan e.plan).quiet
          stepT := none
          holdT := none } }

/-- Step i of a plan is a PAUSE within the plan's length (R79, R100). -/
def State.pauseAt (s : State) (p : PlanNo) (i : Nat) : Bool :=
  decide (i < (s.plan p).length) && ((s.plan p).step i).kind == some .pause

/-- The duration of a PAUSE at step i, in ms (R79). -/
def State.pauseMs (s : State) (p : PlanNo) (i : Nat) : Nat := 10 * ((s.plan p).step i).time.toNat

/-- A run resting in the PAUSE at its step, the step timer started (R100, R107). -/
def State.pausing (s : State) (run : Run) : State :=
  { s with engine :=
      { s.engine with run := some { run with phase := .waiting }
                      stepT := startTimer s.now (s.pauseMs run.plan run.step.val) } }

/-- A run in HELD at its step, the HELD flag set, the hold timer started unless the hold is unlimited (R108). -/
def State.holding (s : State) (run : Run) (units : Byte) : State :=
  setFlag .held
    ((s.setRun (some { run with phase := .held })).setEngineTimers s.engine.quietT s.engine.stepT
      (if units = 0 then none else startTimer s.now (100 * units.toNat)))

/-- A run waiting at its AWAIT step for a selection, the step timer started (R104). -/
def State.awaiting (s : State) (run : Run) (sel : RailSet) (units : Byte) : State :=
  (s.setRun (some { run with phase := .waiting, selection := sel })).setEngineTimers s.engine.quietT
    (startTimer s.now (10 * units.toNat)) s.engine.holdT

/-! ### Steps -/

/-- The last-run report of a run whose step's command, or group selection, was refused (R101, R104, R113). -/
def Run.refusedAt (run : Run) (k : Result) : Report := { run.failedFor .stepRefused with refusal := some k }

/-- The rails that a step's target names: the rails its group target selects, or the target rail in whatever state (R67, R101, R104). -/
def State.stepTargets (s : State) (st : StepRec) : List Rail :=
  allRails.filter (fun r =>
    if st.group then (s.rail r).state != .unused && (s.rail r).cfg.tag &&& st.mask == st.tag &&& st.mask else st.target == railByte r)

/-- The state that an AWAIT step waits for (R105, R106). -/
def StepKind.met (k : StepKind) (st : RailState) : Bool :=
  if k = .awaitOn then st == .on else st == .off || st == .faulted || st == .locked

/-- A state that fails an AWAIT step at once (R105, R106). -/
def StepKind.lost (k : StepKind) (st : RailState) : Bool := if k = .awaitOn then !st.active else st.active || st == .unused

/-- The part after a step has completed: HELD by the hold-after flag, the next step, here a PAUSE, or the end DONE with nothing waiting
(R102). -/
def State.stepCompleted (s : State) (run : Run) (t : State) : Prop :=
  let st := s.stepRec run run.step.val
  (st.holdAfter = true → t = s.holding run st.limit)
    ∧ (st.holdAfter = false →
      (∀ i : StepNo, i.val = run.step.val + 1 → s.pauseAt run.plan i.val = true → t = s.pausing { run with step := i })
      ∧ ((s.plan run.plan).length ≤ run.step.val + 1 → s.noneWaiting = true → t = setFlag .done (s.idleAfter (run.ended .done))))

/-- The part after a run has FAILED, its report given, when no unwind run starts and nothing waits (R112, R114, R115). -/
def State.runFailed (s : State) (run : Run) (x : Report) (t : State) : Prop :=
  s.noneWaiting = true →
    (run.role ≠ .unwind → (run.role = .normal → (s.plan run.plan).unwind = none) →
      t = logEngine .stepFailed run.role { plan := run.plan, step := some run.step } (setFlag .fail (s.idleAfter x)))
    ∧ (∀ p : PlanNo, run.role = .unwind → run.failedPlan = some p →
      t = logEngine .unwindFailed .unwind { plan := p, step := run.failingStep } (setFlag .fail (s.idleAfter x)))

/-- The part after the start of the step at which a run stands, with `failed` giving what follows a failure (R100 to R108). An issuing step judges
each rail it names as the command would, and changes those that pass; an accepted RAISE meets no fault that stands. -/
def State.stepStartedOr (failed : State → Run → Report → State → Prop) (s : State) (run : Run) (t : State) : Prop :=
  let st := s.stepRec run run.step.val
  let sel := s.stepTargets st
  (st.kind = some .pause → t = s.pausing run)
    ∧ (st.kind = some .hold → t = s.holding run st.time)
    ∧ (st.kind ∉ [none, some .pause, some .hold] → st.group = true → sel = [] → failed s run (run.refusedAt .emptyGroup) t)
    ∧ (∀ k : StepKind, st.kind = some k → k = .awaitOn ∨ k = .awaitOff → sel ≠ [] →
      ((∀ r ∈ sel, k.met (s.rail r).state = true) →
        (s.setEngineTimers s.engine.quietT none s.engine.holdT).stepCompleted { run with selection := 0 } t)
      ∧ ((∃ r ∈ sel, k.lost (s.rail r).state = true) → failed s run (run.failedFor .awaitImpossible) t)
      ∧ ((∀ r ∈ sel, k.lost (s.rail r).state = false) → (∃ r ∈ sel, k.met (s.rail r).state = false) →
        t = s.awaiting run (RailSet.ofList sel) st.time))
    ∧ (st.kind = some .raise → sel ≠ [] →
      ∀ acc : List Rail, acc = sel.filter (fun r => (s.rail r).state == .off && (s.raiseRefusal r).isNone) →
        ∀ ref : List Rail, ref = sel.filter (fun r => (s.raiseRefusal r).isSome) → (∀ r ∈ acc, s.nothingStands r = true) →
        ∀ s1 : State, s1 = (s.mapRails acc (fun r => (s.rail r).raised s.now)).joined (RailSet.ofList acc) →
          (ref = [] → s1.stepCompleted run t)
          ∧ (ref ≠ [] → acc ≠ [] → failed s1 run (run.refusedAt .partialResult) t)
          ∧ (∀ (x : Rail) (l : List Rail) (k : Result), acc = [] → ref = x :: l → s.raiseRefusal x = some k →
              failed s run (run.refusedAt k) t))
    ∧ (st.kind = some .clear → sel ≠ [] →
      ∀ acc : List Rail, acc = sel.filter (fun r => (s.rail r).state != .off && (s.clearRefusal r).isNone) →
        ∀ ref : List Rail, ref = sel.filter (fun r => (s.clearRefusal r).isSome) →
        ∀ s1 : State, s1 = (s.mapRails acc (fun r => (s.rail r).cleared)).joined (RailSet.ofList acc) →
          (ref = [] → s1.stepCompleted run t)
          ∧ (ref ≠ [] → acc ≠ [] → failed s1 run (run.refusedAt .partialResult) t)
          ∧ (∀ (x : Rail) (l : List Rail) (k : Result), acc = [] → ref = x :: l → s.clearRefusal x = some k →
              failed s run (run.refusedAt k) t))
    ∧ (st.kind = some .lower → sel ≠ [] →
      (st.group = false → (∃ r ∈ sel, (s.rail r).state.notLowerable = true) → failed s run (run.refusedAt .state) t)
      ∧ ∀ low : List Rail, low = sel.filter (fun r => (s.rail r).state.active) →
        ((∃ x : Rail, (st.group = true → x ∉ sel) ∧ ∃ r ∈ low, s.childActive r x) → failed s run (run.refusedAt .childActive) t)
        ∧ ((∀ x : Rail, (st.group = true → x ∉ sel) → ¬ ∃ r ∈ low, s.childActive r x) →
          st.group = true ∨ (∀ r ∈ sel, (s.rail r).state.notLowerable = false) →
            ((s.mapRails low (fun r => (s.rail r).lowered s.now)).joined (RailSet.ofList low)).stepCompleted run t))

/-- The unwind run of a failed NORMAL run, at its step 0 (R98, R115). -/
def Run.unwinding (run : Run) (u : PlanNo) : Run where
  phase := .waiting
  plan := u
  role := .unwind
  origin := run.origin
  tag := run.tag
  step := 0
  selection := 0
  failedPlan := some run.plan
  failingStep := some run.step

/-- The part after a run has FAILED at its step: as `runFailed`, or with the unwind run of its plan started at step 0, or PLAN_MISSING when the unwind
plan is not READY (R115, R116). -/
def State.runFailedAt (s : State) (run : Run) (x : Report) (t : State) : Prop :=
  s.runFailed run x t
    ∧ ∀ u : PlanNo, run.role = .normal → (s.plan run.plan).unwind = some u →
      ∀ s1 : State, s1 = logEngine .stepFailed .normal { plan := run.plan, step := some run.step } (setFlag .fail (s.idleAfter x)) →
        ((s.plan u).state = .ready → 0 < (s.plan u).length → s1.stepStartedOr State.runFailed (run.unwinding u) t)
        ∧ ((s.plan u).state ≠ .ready → s.noneWaiting = true →
          t = logEngine .planMissing .normal { plan := run.plan, step := some run.step } s1)

/-- The part after the start of the step at which a run stands (R100 to R108), its failure judged by the failure policy (R115). -/
def State.stepStarted (s : State) (run : Run) (t : State) : Prop := s.stepStartedOr State.runFailedAt run t

/-- The run started for a fault-plan request, at step 0 (R98, R119). -/
def urgentRun (p : PlanNo) : Run where
  phase := .waiting
  plan := p
  role := .urgent
  origin := .fault
  tag := none
  step := 0
  selection := 0
  failedPlan := none
  failingStep := none

/-- A plan is in use, and where: 1 the run in progress, 2 the queue, 3 the slot (R81). -/
def State.usedAt (s : State) (p : PlanNo) (place : Nat) : Bool :=
  match place with
  | 1 => s.engine.run.any (fun run => run.plan == p)
  | 2 => s.requests.queue.any (fun e => e.plan == p)
  | 3 => s.requests.slot.any (fun q => q.plan == p)
  | _ => false

end Sys2Proof.Machine
end

