-- ==== Sys2Proof/Certificates/Slice0/Obligations.lean ====
section
/-! DEFINITION. The statements for the provers, each a rule of the spec or derived from the sections it names. Outcomes are told as whole states: what
an equation does not change, the command leaves as it was. -/

section

open Sys2Proof Sys2Proof.Machine

/-! ### The queue, reset, the clock, the bus -/

/-- One step carries out the command at the front of the queue; an empty queue idles (the model's own form, log entry 1). -/
def Obligations.StepRunsFrontCommand : Prop :=
  (∀ (s : State) (c : Instr) (l : List Instr), s.pending = c :: l → step s = exec c (s.withPending l))
    ∧ ∀ s : State, s.pending = [] → step s = .next s

/-- What the host reads at State.reset: every location of the window but PINST, and the RAIL_CFG record of every rail. EVT reads 01h since State.reset
has KILL# deasserted, which is the model's choice (log entry 8); ResetsTakeResetValues is the form for either level of KILL#. -/
def Obligations.ResetWindowReads : Prop :=
  (∀ addr : Addr, addr.toNat ≠ 0x14 →
    readRegister State.reset addr =
      (match addr.toNat with
        | 0x00 => 0xA8
        | 0x01 => 0x02
        | 0x02 => 0x01
        | 0x03 => 0x01
        | 0x15 => 0x8F
        | _ => 0))
    ∧ ∀ r : Rail, (encodeCfg (State.reset.rail r).cfg).toList =
        [0x04, 0x00, 0xFF, 0xFF, 0x2C, 0x01, 0xB8, 0x0B, 0x10, 0x0E, 0x14, 0x14, 0x05, 0x14, 0x02, 0x07, 0x10, 0x00, 0x0A, 0xFF]

/-- The three reset commands: every block at its reset values; at the end of a reset RESTART stands, with KILL and the SHED latch when KILL# is
asserted; while RESET# is asserted the notification unit shows nothing. The model's choices in it: the arm of the backfeed
filter (log entry 10), lastRead 0 (log entry 9), the bytes of the copy (log entry 18), no report remembered as given within a band (log entry 25), and
that a power-on reset taken while RESET# is asserted leaves the part held (log entry 17). -/
def Obligations.ResetsTakeResetValues : Prop :=
  (∀ s : State, s.pins.inReset = false →
    ∃ t, exec .powerOnReset s = .next t ∧ t.pins = s.pins
      ∧ s.resetTo t (if s.pins.kill then { flags := 0x81, enables := 0x01, changed := 0, shed := true, int := true } else Notify.reset))
    ∧ (∀ s : State, s.pins.inReset = true →
      ∃ t, exec .resetDeassertion s = .next t ∧ t.pins = { s.pins with inReset := false }
        ∧ s.resetTo t (if s.pins.kill then { flags := 0x81, enables := 0x01, changed := 0, shed := true, int := true } else Notify.reset))
    ∧ (∀ s : State, s.pins.inReset = false →
      ∃ t, exec .resetAssertion s = .next t ∧ t.pins = { s.pins with inReset := true } ∧ s.resetTo t Notify.held)
    ∧ ∀ s : State, s.pins.inReset = true → ∃ t, exec .powerOnReset s = .next t ∧ t.pins = s.pins ∧ s.resetTo t Notify.held

/-- The part right after reset obeys every law. -/
def Obligations.ResetObeysEveryLaw : Prop :=
  State.reset.everyRail RailChan.outputsLaw ∧ State.reset.everyRail RailChan.timersLaw ∧ State.reset.everyRail RailChan.retryLaw
    ∧ State.reset.everyRail RailChan.latchedLaw ∧ State.reset.parentsBelow ∧ State.reset.parentsOn ∧ State.reset.intLaw
    ∧ State.reset.fltLaw ∧ State.reset.logLaw ∧ State.reset.shedLaw ∧ State.reset.storeLaw ∧ State.reset.runLaw
    ∧ State.reset.killLaw ∧ State.reset.heldLaw

/-- The uptime counter moves by the millisecond tick and by the resets, and by no other command. A reset edge to the level that RESET# has is no edge
(the model's choice, log entry 6). -/
def Obligations.UptimeMovesByTickAndReset : Prop :=
  (∀ s : State, s.pins.inReset = false →
    exec .uptimeTick s = .next { s with log := { s.log with uptime := s.log.uptime + 1 } })
    ∧ ∀ (s : State) (c : Instr) (t : State), exec c s = .next t →
      t.log.uptime =
        (match c with
          | .uptimeTick => if s.pins.inReset then s.log.uptime else s.log.uptime + 1
          | .powerOnReset => 0
          | .resetAssertion => if s.pins.inReset then s.log.uptime else 0
          | .resetDeassertion => if s.pins.inReset then 0 else s.log.uptime
          | _ => s.log.uptime)

/-- While RESET# is asserted no bus cycle is taken: writes are ignored, and reads drive 0. -/
def Obligations.NoBusCycleInReset : Prop :=
  ∀ s : State, s.pins.inReset = true →
    (∀ (addr : Addr) (value : Byte), exec (rowOfWrite addr value) s = .next s)
      ∧ (∀ (addr : Addr) (i : Instr), rowOfRead addr = some i → exec i s = .next { s with bus := { s.bus with lastRead := 0 } })
      ∧ ∀ addr : Addr, readRegister s addr = 0 ∧ busDrive true true false addr s = some 0

/-! ### Laws that every step keeps -/

/-- INT# is asserted exactly while a flag stands with its enable. -/
def Obligations.StepKeepsIntLaw : Prop := ∀ s t : State, step s = .next t → s.intLaw → t.intLaw

/-- FLT# is asserted exactly while the log holds a record of a pin member. -/
def Obligations.StepKeepsFltLaw : Prop := ∀ s t : State, step s = .next t → s.fltLaw → t.fltLaw

/-- The state of a rail fixes its outputs. -/
def Obligations.StepKeepsOutputs : Prop :=
  ∀ s t : State, step s = .next t → s.everyRail RailChan.outputsLaw → t.everyRail RailChan.outputsLaw

/-- Each timer of a rail runs only where its rule lets it run; the retry count stays within its limit; kinds stand latched only on a cut rail. -/
def Obligations.StepKeepsRailLaws : Prop :=
  (∀ s t : State, step s = .next t → s.everyRail RailChan.timersLaw → t.everyRail RailChan.timersLaw)
    ∧ (∀ s t : State, step s = .next t → s.everyRail RailChan.retryLaw → t.everyRail RailChan.retryLaw)
    ∧ ∀ s t : State, step s = .next t → s.everyRail RailChan.latchedLaw → t.everyRail RailChan.latchedLaw

/-- Parents have lower numbers, and a rail is RAMPING or ON only while each of its parents is ON. -/
def Obligations.StepKeepsParentsOn : Prop :=
  (∀ s t : State, step s = .next t → s.parentsBelow → t.parentsBelow)
    ∧ ∀ s t : State, step s = .next t → s.parentsBelow → s.parentsOn → t.parentsOn

/-- The fault log holds at most one record of each source, each within its bounds. -/
def Obligations.StepKeepsLogLaw : Prop := ∀ s t : State, step s = .next t → s.logLaw → t.logLaw

/-- The SHED latch stands whenever KILL# is asserted or a shed member is FAULTED or LOCKED. -/
def Obligations.StepKeepsShedLaw : Prop := ∀ s t : State, step s = .next t → s.shedLaw → t.shedLaw

/-- The plan store's marker, headers and write count agree. -/
def Obligations.StepKeepsStoreLaw : Prop := ∀ s t : State, step s = .next t → s.storeLaw → t.storeLaw

/-- The queue and the slot keep their laws. -/
def Obligations.StepKeepsRunLaw : Prop := ∀ s t : State, step s = .next t → s.runLaw → t.runLaw

/-- While RESET# is asserted every block stays at its reset values. The model's choices in it: the arm of the backfeed filter (log entry 10), the
bytes of the copy (log entry 18), no report remembered as given within a band (log entry 25), and that the inputs still move meanwhile (log entry
17). -/
def Obligations.StepKeepsHeldLaw : Prop := ∀ s t : State, step s = .next t → s.heldLaw → t.heldLaw

/-- While KILL# is asserted nothing is up and nothing runs. -/
def Obligations.StepKeepsKillLaw : Prop := ∀ s t : State, step s = .next t → s.heldLaw → s.killLaw → t.killLaw

/-! ### Single-rail commands -/

/-- A refused command leaves everything but CMD, RES, RDET and the REFUSED flag; ALREADY leaves everything but CMD, RES and RDET; a code that names
no command is refused with BAD_COMMAND and the code in RDET. -/
def Obligations.RefusedCommandChangesNothing : Prop :=
  (∀ (s : State) (c : Command), s.pins.inReset = false → ∀ t : State, exec (rowOfCode c.code) s = .next t →
    t.bus.res ≠ 0x01 → t.bus.res ≠ 0x03 →
      t = (if t.bus.res = 0x02 then s.window c.code 0x02 0 else s.refusedWith c.code t.bus.res t.bus.rdet))
    ∧ ∀ (s : State) (code : Byte), s.pins.inReset = false → (Instr.badCommand code).wf = true →
      exec (.badCommand code) s = .next (s.refusedWith code 0x10 code)

/-- RAISE answered without an effect on the rail, check by check. -/
def Obligations.RaiseAnswers : Prop :=
  ∀ s : State, s.pins.inReset = false →
    (16 ≤ s.bus.arg0.toNat → exec .raise s = .next (s.refusedWith 0x01 0x11 0))
      ∧ ∀ r : Rail, s.bus.arg0 = railByte r →
        ((s.rail r).state = .unused ∨ (s.rail r).state = .lowering ∨ (s.rail r).state = .faulted ∨ (s.rail r).state = .locked →
            exec .raise s = .next (s.refusedWith 0x01 0x12 0))
          ∧ ((s.rail r).state = .ramping ∨ (s.rail r).state = .on → exec .raise s = .next (s.window 0x01 0x02 0))
          ∧ ((s.rail r).state = .off → ∀ p : Rail, s.lowestParentNotOn r p →
              exec .raise s = .next (s.refusedWith 0x01 0x20 (railByte p)))
          ∧ ((s.rail r).state = .off → s.allParentsOn r → (s.rail r).zone ≠ .zero →
              exec .raise s = .next (s.refusedWith 0x01 0x22 0))
          ∧ ((s.rail r).state = .off → s.allParentsOn r → (s.rail r).zone = .zero → s.pins.kill = true →
              exec .raise s = .next (s.refusedWith 0x01 0x23 0))

/-- An accepted RAISE takes the rail into RAMPING, with every parent ON, the voltage at ZERO, KILL# deasserted and no fault standing. A step in
progress that waits for the rail to be off fails. -/
def Obligations.RaiseEntersRamping : Prop :=
  ∀ (s : State) (r : Rail), s.pins.inReset = false → s.bus.arg0 = railByte r → (s.rail r).state = .off → s.allParentsOn r →
    (s.rail r).zone = .zero → s.pins.kill = false → s.nothingStands r = true →
      ∀ s1 : State, s1 = (s.window 0x01 0x01 0).changedRail r ((s.rail r).raised s.now) →
        (s.unawaited r = true → exec .raise s = .next s1)
        ∧ ∀ run : Run, s.engine.run = some run → run.phase = .waiting → (s.stepRec run run.step.val).kind = some .awaitOff →
          RailSet.has run.selection r = true →
            ∃ t, exec .raise s = .next t ∧ s1.runFailedAt run (run.failedFor .awaitImpossible) t

/-- An accepted RAISE of a rail whose bound input stands asserted, with EXT in its set and a response that cuts: the rail declares EXT in the event
of the entry and goes FAULTED or LOCKED, the voltage being ZERO; the command is still answered ACCEPTED. Where each parent of an active rail is ON no
other rail changes, and SHED# follows from this rail alone. -/
def Obligations.RaiseMeetsStandingInput : Prop :=
  ∀ (s : State) (r : Rail), s.pins.inReset = false → s.bus.arg0 = railByte r → (s.rail r).state = .off → s.allParentsOn r →
    (s.rail r).zone = .zero → s.pins.kill = false → (s.rail r).overCurrent = false →
    (s.rail r).cfg.detect.ext = true → s.boundAsserted r = true → (s.rail r).cfg.response ≠ .report →
    (s.rail r).cfg.faultPlan = none → s.engine.run = none →
      ∃ t, exec .raise s = .next t
        ∧ t = { s.window 0x01 0x01 0 with
                  rails := t.rails, log := { s.log with records := t.log.records, flt := t.log.flt }, notify := t.notify }
        ∧ t.rail r = ((s.rail r).raised s.now).cut s.now ((s.rail r).raised s.now).faultState .ext
        ∧ RailSet.has t.notify.changed r = true ∧ t.notify.flags = s.notify.flags ||| 0x04 ∧ t.notify.enables = s.notify.enables
        ∧ t.intLaw ∧ (s.fltLaw → t.fltLaw)
        ∧ (∃ x ∈ t.log.records, x.subject.source = r.val ∧ hasKind x.seen FaultKind.ext.code = true ∧ x.lastTime = s.now)
        ∧ (s.parentsOn →
            (∀ x : Rail, x ≠ r → t.rail x = s.rail x) ∧ t.notify.changed = RailSet.add s.notify.changed r
              ∧ t.notify.shed = (s.notify.shed || (s.rail r).cfg.shedMember)
              ∧ ∀ x ∈ t.log.records, x.subject.source ≠ r.val → x ∈ s.log.records)

/-- LOWER answered, and carried out: an active rail without an active child goes LOWERING, or OFF at once when its voltage is ZERO. A step in progress
that waits for the rail to be ON fails. -/
def Obligations.LowerAnswersAndLowers : Prop :=
  ∀ s : State, s.pins.inReset = false →
    (16 ≤ s.bus.arg0.toNat → exec .lower s = .next (s.refusedWith 0x02 0x11 0))
      ∧ ∀ r : Rail, s.bus.arg0 = railByte r →
        ((s.rail r).state = .unused ∨ (s.rail r).state = .faulted ∨ (s.rail r).state = .locked →
            exec .lower s = .next (s.refusedWith 0x02 0x12 0))
          ∧ ((s.rail r).state = .off ∨ (s.rail r).state = .lowering → exec .lower s = .next (s.window 0x02 0x02 0))
          ∧ ((s.rail r).state = .ramping ∨ (s.rail r).state = .on →
              (∀ x : Rail, s.childActive r x → (∀ y : Rail, y < x → ¬ s.childActive r y) →
                exec .lower s = .next (s.refusedWith 0x02 0x21 (railByte x)))
              ∧ ((∀ x : Rail, ¬ s.childActive r x) →
                ∀ s1 : State, s1 = (s.window 0x02 0x01 0).changedRail r ((s.rail r).lowered s.now) →
                  (s.unawaited r = true → exec .lower s = .next s1)
                  ∧ ∀ run : Run, s.engine.run = some run → run.phase = .waiting →
                    (s.stepRec run run.step.val).kind = some .awaitOn → RailSet.has run.selection r = true →
                      ∃ t, exec .lower s = .next t ∧ s1.runFailedAt run (run.failedFor .awaitImpossible) t))

/-- CLEAR answered, and carried out: a FAULTED or LOCKED rail with no condition present and its voltage at ZERO goes OFF with nothing latched. -/
def Obligations.ClearAnswersAndClears : Prop :=
  ∀ s : State, s.pins.inReset = false →
    (16 ≤ s.bus.arg0.toNat → exec .clear s = .next (s.refusedWith 0x03 0x11 0))
      ∧ ∀ r : Rail, s.bus.arg0 = railByte r →
        ((s.rail r).state = .unused ∨ (s.rail r).state = .ramping ∨ (s.rail r).state = .on ∨ (s.rail r).state = .lowering →
            exec .clear s = .next (s.refusedWith 0x03 0x12 0))
          ∧ ((s.rail r).state = .off → exec .clear s = .next (s.window 0x03 0x02 0))
          ∧ ((s.rail r).state = .faulted ∨ (s.rail r).state = .locked →
              (∀ k : FaultKind, s.standing r = some k → exec .clear s = .next (s.refusedWith 0x03 0x24 (byte k.code)))
              ∧ (s.standing r = none → (s.rail r).zone ≠ .zero → exec .clear s = .next (s.refusedWith 0x03 0x25 0))
              ∧ (s.standing r = none → (s.rail r).zone = .zero → s.unawaited r = true →
                exec .clear s = .next ((s.window 0x03 0x01 0).changedRail r (s.rail r).cleared)))

/-! ### Group commands -/

/-- RAISE_GROUP: every selected rail is judged as a RAISE of its own on the states when the command was taken; those that pass enter RAMPING; the
result follows the table of R68. -/
def Obligations.RaiseGroupRaisesEach : Prop :=
  ∀ s : State, s.pins.inReset = false →
    (16 ≤ s.bus.arg0.toNat ∨ 16 ≤ s.bus.arg1.toNat → exec .raiseGroup s = .next (s.refusedWith 0x04 0x11 0))
      ∧ ∀ tag mask : BitVec 4, s.bus.arg0 = tag.setWidth 8 → s.bus.arg1 = mask.setWidth 8 →
        ∀ sel acc ref : List Rail,
          sel = allRails.filter (fun r => (s.rail r).state != .unused && (s.rail r).cfg.tag &&& mask == tag &&& mask) →
          acc = sel.filter (fun r => (s.rail r).state == .off && (s.raiseRefusal r).isNone) →
          ref = sel.filter (fun r => (s.raiseRefusal r).isSome) →
          (sel = [] → exec .raiseGroup s = .next (s.refusedWith 0x04 0x2A 0))
            ∧ (∀ (x : Rail) (l : List Rail) (k : Result), acc = [] → ref = x :: l → s.raiseRefusal x = some k →
                exec .raiseGroup s = .next (s.refusedWith 0x04 k.code (railByte x)))
            ∧ (sel ≠ [] → ref = [] → (∀ r ∈ acc, s.nothingStands r = true ∧ s.unawaited r = true) →
                exec .raiseGroup s = .next
                  (((s.mapRails acc (fun r => (s.rail r).raised s.now)).told (RailSet.ofList acc)).window 0x04 0x01 (byte acc.length)))
            ∧ (ref ≠ [] → acc ≠ [] → (∀ r ∈ acc, s.nothingStands r = true ∧ s.unawaited r = true) →
                exec .raiseGroup s = .next
                  (((s.mapRails acc (fun r => (s.rail r).raised s.now)).told (RailSet.ofList acc)).refusedWith 0x04 0x03
                    (byte ref.length)))

/-- LOWER_GROUP, all or nothing: refused when an active rail outside the group is a child of an active rail of it; else every active rail of the group
is lowered. -/
def Obligations.LowerGroupAllOrNothing : Prop :=
  ∀ s : State, s.pins.inReset = false →
    (16 ≤ s.bus.arg0.toNat ∨ 16 ≤ s.bus.arg1.toNat → exec .lowerGroup s = .next (s.refusedWith 0x05 0x11 0))
      ∧ ∀ tag mask : BitVec 4, s.bus.arg0 = tag.setWidth 8 → s.bus.arg1 = mask.setWidth 8 →
        ∀ sel low : List Rail,
          sel = allRails.filter (fun r => (s.rail r).state != .unused && (s.rail r).cfg.tag &&& mask == tag &&& mask) →
          low = sel.filter (fun r => (s.rail r).state.active) →
          (sel = [] → exec .lowerGroup s = .next (s.refusedWith 0x05 0x2A 0))
            ∧ (∀ x : Rail, x ∉ sel → (∃ r ∈ low, s.childActive r x) → (∀ y : Rail, y < x → y ∉ sel → ¬ ∃ r ∈ low, s.childActive r y) →
                exec .lowerGroup s = .next (s.refusedWith 0x05 0x21 (railByte x)))
            ∧ (sel ≠ [] → low = [] → exec .lowerGroup s = .next (s.window 0x05 0x02 0))
            ∧ (low ≠ [] → (∀ x : Rail, x ∉ sel → ¬ ∃ r ∈ low, s.childActive r x) → (∀ r ∈ low, s.unawaited r = true) →
                exec .lowerGroup s = .next
                  (((s.mapRails low (fun r => (s.rail r).lowered s.now)).told (RailSet.ofList low)).window 0x05 0x01 (byte low.length)))

/-- CLEAR_GROUP: every selected rail is judged as a CLEAR of its own; those that pass go OFF; the result follows the table of R68. -/
def Obligations.ClearGroupClearsEach : Prop :=
  ∀ s : State, s.pins.inReset = false →
    (16 ≤ s.bus.arg0.toNat ∨ 16 ≤ s.bus.arg1.toNat → exec .clearGroup s = .next (s.refusedWith 0x06 0x11 0))
      ∧ ∀ tag mask : BitVec 4, s.bus.arg0 = tag.setWidth 8 → s.bus.arg1 = mask.setWidth 8 →
        ∀ sel acc ref : List Rail,
          sel = allRails.filter (fun r => (s.rail r).state != .unused && (s.rail r).cfg.tag &&& mask == tag &&& mask) →
          acc = sel.filter (fun r => (s.rail r).state != .off && (s.clearRefusal r).isNone) →
          ref = sel.filter (fun r => (s.clearRefusal r).isSome) →
          (sel = [] → exec .clearGroup s = .next (s.refusedWith 0x06 0x2A 0))
            ∧ (∀ (x : Rail) (l : List Rail) (k : Result), acc = [] → ref = x :: l → s.clearRefusal x = some k →
                exec .clearGroup s = .next (s.refusedWith 0x06 k.code (railByte x)))
            ∧ (sel ≠ [] → ref = [] → (∀ r ∈ acc, s.unawaited r = true) →
                exec .clearGroup s = .next
                  (((s.mapRails acc (fun r => (s.rail r).cleared)).told (RailSet.ofList acc)).window 0x06 0x01 (byte acc.length)))
            ∧ (ref ≠ [] → acc ≠ [] → (∀ r ∈ acc, s.unawaited r = true) →
                exec .clearGroup s = .next
                  (((s.mapRails acc (fun r => (s.rail r).cleared)).told (RailSet.ofList acc)).refusedWith 0x06 0x03 (byte ref.length)))

/-! ### Configuration -/

/-- LOAD_RAIL copies the live record of the rail, whole, into the staging buffer. -/
def Obligations.LoadRailCopiesRecord : Prop :=
  ∀ s : State, s.pins.inReset = false →
    (16 ≤ s.bus.arg0.toNat → exec .loadRail s = .next (s.refusedWith 0x08 0x11 0))
      ∧ ∀ r : Rail, s.bus.arg0 = railByte r →
        exec .loadRail s = .next ((s.window 0x08 0x01 0).setStaging (encodeCfg (s.rail r).cfg))

/-- WRITE_RAIL refused: a rail that is not OFF or UNUSED, the first failing check of R7, a parent in use. -/
def Obligations.WriteRailChecks : Prop :=
  ∀ s : State, s.pins.inReset = false →
    (16 ≤ s.bus.arg0.toNat → exec .writeRail s = .next (s.refusedWith 0x09 0x11 0))
      ∧ ∀ r : Rail, s.bus.arg0 = railByte r →
        ((s.rail r).state ≠ .off → (s.rail r).state ≠ .unused → exec .writeRail s = .next (s.refusedWith 0x09 0x12 0))
          ∧ ((s.rail r).state = .off ∨ (s.rail r).state = .unused →
              (∀ n ∈ [1, 2, 3, 4, 5, 6, 7, 8], s.checkFails r n = true → (∀ m ∈ List.range n, s.checkFails r m = false) →
                exec .writeRail s = .next (s.refusedWith 0x09 0x28 (byte n)))
              ∧ (s.checksPass r = true → s.bus.staging[0].getLsbD 0 = false →
                ∀ x : Rail, r ∈ (s.rail x).cfg.parents → (s.rail x).state ≠ .unused →
                  (∀ y : Rail, y < x → r ∈ (s.rail y).cfg.parents → (s.rail y).state = .unused) →
                    exec .writeRail s = .next (s.refusedWith 0x09 0x29 (railByte x))))

/-- An accepted WRITE_RAIL: the record replaced, counts and kinds emptied, timers cancelled, the front end comparing with the new record, the
present zone judged, and FLT# recomputed. The sensed values lie outside the accuracy bands of the new record, and BACKFEED without a filter
time does not stand. The counter of free values moves on, the arm of the backfeed filter is left open for an UNUSED rail, and no report is remembered as
given within a band (the model's choices, log entries 3, 21 and 25). -/
def Obligations.WriteRailApplies : Prop :=
  ∀ (s : State) (r : Rail) (c : RailCfg) (z : Zone) (oc : Bool), s.pins.inReset = false → s.bus.arg0 = railByte r →
    ((s.rail r).state = .off ∨ (s.rail r).state = .unused) → s.checksPass r = true → c = decodeCfg s.bus.staging →
    outsideBands c (s.rail r).senseMv = true →
    withinLimitBand c (s.rail r).senseMa = false →
    z = zoneOf c (s.rail r).senseMv → oc = overCurrentOf c (s.rail r).senseMa → s.unawaited r = true →
      (c.used = true → (c.detect.backfeed && c.filterTime == 0 && z != .zero) = false →
        exec .writeRail s = .next
          (recomputeFlt (((if (s.rail r).state = .off then State.setRail else State.changedRail) { s with freeIndex := s.freeIndex + 1 } r
            { (s.rail r).cleared with
                cfg := c, retries := 0, armOv := true, armUv := true, armOc := true, armExt := true, zone := z, overCurrent := oc
                bands := BandReports.clear
                backfeedT := if c.detect.backfeed = true ∧ z ≠ .zero then startTimer s.now c.filterTime else none }).window 0x09 0x01 0)))
      ∧ (c.used = false → (∀ x : Rail, r ∈ (s.rail x).cfg.parents → (s.rail x).state = .unused) →
        ∃ arm : Bool, exec .writeRail s = .next
          (recomputeFlt (((if (s.rail r).state = .unused then State.setRail else State.changedRail) { s with freeIndex := s.freeIndex + 1 } r
            { (s.rail r).cleared with
                state := .unused, cfg := c, retries := 0, armOv := true, armUv := true, armOc := true, armExt := true, zone := z
                overCurrent := oc, bands := BandReports.clear, armBackfeed := arm }).window 0x09 0x01 0)))

/-- A configuration record and its bytes say the same: bytes that pass check 3 of R7 are read and written back unchanged, and a record within its
ranges is written and read back unchanged. -/
def Obligations.RecordBytesRoundTrip : Prop :=
  (∀ v : Vector Byte 20, fieldUndefined v = false → encodeCfg (decodeCfg v) = v)
    ∧ ∀ c : RailCfg, c.offLevel ≤ 20000 → c.goodLevel ≤ 20000 → c.overLevel ≤ 20000 →
        1 ≤ c.currentLimit → c.currentLimit ≤ 255 → 1 ≤ c.rampLimit → c.rampLimit ≤ 255 → c.settleTime ≤ 255 →
        1 ≤ c.dischargeLimit → c.dischargeLimit ≤ 255 → c.filterTime ≤ 15 → c.retryLimit ≤ 7 → 1 ≤ c.retryInterval →
        c.retryInterval ≤ 255 → decodeCfg (encodeCfg c) = c ∧ fieldUndefined (encodeCfg c) = false

/-! ### Plans -/

/-- DEFINE and ERASE, answered and carried out. -/
def Obligations.DefineAndErase : Prop :=
  ∀ s : State, s.pins.inReset = false →
    (8 ≤ s.bus.arg0.toNat ∨ s.bus.arg1 = 0 ∨ 16 < s.bus.arg1.toNat ∨ (8 ≤ s.bus.arg2.toNat ∧ s.bus.arg2 ≠ 0xFF)
        ∨ s.bus.arg2 = s.bus.arg0 → exec .define s = .next (s.refusedWith 0x10 0x11 0))
      ∧ (8 ≤ s.bus.arg0.toNat → exec .erase s = .next (s.refusedWith 0x12 0x11 0))
      ∧ ∀ p : PlanNo, s.bus.arg0 = byte p.val →
        (∀ u : Option PlanNo, 1 ≤ s.bus.arg1.toNat → s.bus.arg1.toNat ≤ 16 → s.bus.arg2 = absentFF u → u ≠ some p →
          (∀ n ∈ [1, 2, 3], s.usedAt p n = true → (∀ m ∈ List.range n, s.usedAt p m = false) →
              exec .define s = .next (s.refusedWith 0x10 0x33 (byte n)))
            ∧ (∀ q : PlanNo, (∀ n ∈ [1, 2, 3], s.usedAt p n = false) → s.store.defining = some q → q ≠ p →
              exec .define s = .next (s.refusedWith 0x10 0x12 (byte q.val)))
            ∧ ((∀ n ∈ [1, 2, 3], s.usedAt p n = false) → s.store.defining = none ∨ s.store.defining = some p →
              exec .define s = .next
                ((((s.window 0x10 0x01 0).setPlan p
                    { state := .defining, length := s.bus.arg1.toNat, unwind := u, quiet := s.bus.arg3.toNat
                      slot := Vector.replicate 64 0 }).setDefining (some p)).setWriteCount 0)))
          ∧ (∀ n ∈ [1, 2, 3], s.usedAt p n = true → (∀ m ∈ List.range n, s.usedAt p m = false) →
              exec .erase s = .next (s.refusedWith 0x12 0x33 (byte n)))
          ∧ ((∀ n ∈ [1, 2, 3], s.usedAt p n = false) → (s.plan p).state = .empty →
              exec .erase s = .next (s.window 0x12 0x02 0))
          ∧ ((∀ n ∈ [1, 2, 3], s.usedAt p n = false) → (s.plan p).state ≠ .empty → s.store.defining ≠ some p →
              exec .erase s = .next ((s.window 0x12 0x01 0).setPlan p Plan.blank))
          ∧ ((∀ n ∈ [1, 2, 3], s.usedAt p n = false) → (s.plan p).state ≠ .empty → s.store.defining = some p →
              exec .erase s = .next ((((s.window 0x12 0x01 0).setPlan p Plan.blank).setDefining none).setWriteCount 0))

/-- COMMIT: no plan DEFINING, a write count that differs from the length, the first bad step, or the plan READY. -/
def Obligations.CommitChecksAndReadies : Prop :=
  ∀ s : State, s.pins.inReset = false →
    (s.store.defining = none → exec .commit s = .next (s.refusedWith 0x11 0x12 0))
      ∧ ∀ p : PlanNo, s.store.defining = some p →
        (s.bus.writeCount.toNat ≠ 4 * (s.plan p).length → exec .commit s = .next (s.refusedWith 0x11 0x34 s.bus.writeCount))
          ∧ (s.bus.writeCount.toNat = 4 * (s.plan p).length →
              (∀ i : Nat, i < (s.plan p).length →
                badStepBytes ((s.plan p).slotByte (4 * i)) ((s.plan p).slotByte (4 * i + 1)) ((s.plan p).slotByte (4 * i + 2)) = true →
                (∀ j < i,
                  badStepBytes ((s.plan p).slotByte (4 * j)) ((s.plan p).slotByte (4 * j + 1)) ((s.plan p).slotByte (4 * j + 2)) = false) →
                  exec .commit s = .next (s.refusedWith 0x11 0x35 (byte i)))
              ∧ ((∀ j < (s.plan p).length,
                  badStepBytes ((s.plan p).slotByte (4 * j)) ((s.plan p).slotByte (4 * j + 1)) ((s.plan p).slotByte (4 * j + 2)) = false) →
                exec .commit s = .next
                  ((((s.window 0x11 0x01 (byte p.val)).setPlan p { s.plan p with state := .ready }).setDefining none).setWriteCount 0)))

/-! ### Runs -/

/-- RUN answered, and appended to the queue while a run is in progress. -/
def Obligations.RunAnswersAndQueues : Prop :=
  ∀ s : State, s.pins.inReset = false →
    (8 ≤ s.bus.arg0.toNat → exec .run s = .next (s.refusedWith 0x18 0x11 0))
      ∧ ∀ p : PlanNo, s.bus.arg0 = byte p.val →
        (s.pins.kill = true → exec .run s = .next (s.refusedWith 0x18 0x23 0))
          ∧ (s.pins.kill = false → (s.plan p).state ≠ .ready → exec .run s = .next (s.refusedWith 0x18 0x32 0))
          ∧ (s.pins.kill = false → (s.plan p).state = .ready →
              (∀ (i : Nat) (e : QueueEntry), s.requests.queue[i]? = some e → e.plan = p →
                (∀ e' ∈ s.requests.queue.take i, e'.plan ≠ p) → exec .run s = .next (s.refusedWith 0x18 0x31 (byte i)))
              ∧ ((∀ e ∈ s.requests.queue, e.plan ≠ p) → 4 ≤ s.requests.queue.length →
                exec .run s = .next (s.refusedWith 0x18 0x30 4))
              ∧ ((∀ e ∈ s.requests.queue, e.plan ≠ p) → s.requests.queue.length < 4 → s.engine.run ≠ none →
                exec .run s = .next
                  ((s.window 0x18 0x01 (byte (s.requests.queue.length + 1))).setQueue
                    (s.requests.queue ++ [{ plan := p, origin := .host, tag := some s.bus.arg1 }]))))

/-- RUN taken into an IDLE engine: the NORMAL run enters QUIET with its quiet timer, or, when the interval is 0, starts its first step. -/
def Obligations.RunStartsIdleEngine : Prop :=
  ∀ (s : State) (p : PlanNo), s.pins.inReset = false → s.bus.arg0 = byte p.val → s.pins.kill = false → (s.plan p).state = .ready →
    s.engine.run = none → s.noneWaiting = true →
      ((s.plan p).quiet ≠ 0 →
        exec .run s = .next ((s.window 0x18 0x01 0).quietRun { plan := p, origin := .host, tag := some s.bus.arg1 }))
      ∧ ((s.plan p).quiet = 0 → 0 < (s.plan p).length →
        ∃ t, exec .run s = .next t
          ∧ ((s.window 0x18 0x01 0).setEngineTimers none none none).stepStarted
            { phase := .waiting, plan := p, role := .normal, origin := .host, tag := some s.bus.arg1, step := 0, selection := 0
              failedPlan := none, failingStep := none } t)

/-- CANCEL removes the plan's entry from the queue; a plan that is not queued is NOT_FOUND. -/
def Obligations.CancelRemovesEntry : Prop :=
  ∀ s : State, s.pins.inReset = false →
    (8 ≤ s.bus.arg0.toNat → exec .cancel s = .next (s.refusedWith 0x19 0x11 0))
      ∧ ∀ p : PlanNo, s.bus.arg0 = byte p.val →
        ((∀ e ∈ s.requests.queue, e.plan ≠ p) → exec .cancel s = .next (s.refusedWith 0x19 0x3A 0))
          ∧ ∀ (l l' : List QueueEntry) (e : QueueEntry), s.requests.queue = l ++ e :: l' → e.plan = p → (∀ x ∈ l, x.plan ≠ p) →
              exec .cancel s = .next ((s.window 0x19 0x01 (byte l.length)).setQueue (l ++ l'))

/-- RELEASE: refused outside HELD; in HELD the next step starts in the same event; after the last step the run ends DONE, and with
nothing waiting the engine goes IDLE. -/
def Obligations.ReleaseGoesOn : Prop :=
  ∀ s : State, s.pins.inReset = false →
    ((∀ run, s.engine.run = some run → run.phase ≠ .held) → exec .release s = .next (s.refusedWith 0x1A 0x38 0))
      ∧ ∀ run : Run, s.engine.run = some run → run.phase = .held →
        (∀ i : StepNo, i.val = run.step.val + 1 → i.val < (s.plan run.plan).length →
          ∃ t, exec .release s = .next t
            ∧ ((s.window 0x1A 0x01 (byte run.step.val)).setEngineTimers s.engine.quietT s.engine.stepT none).stepStarted
              { run with step := i } t)
          ∧ ((s.plan run.plan).length ≤ run.step.val + 1 → s.noneWaiting = true →
              exec .release s = .next (setFlag .done ((s.window 0x1A 0x01 (byte run.step.val)).idleAfter (run.ended .done))))

/-- ABORT: refused in IDLE; else the run ends ABORTED, with FAIL and without a record, and the engine takes the oldest queue entry or goes IDLE. -/
def Obligations.AbortEndsRun : Prop :=
  ∀ s : State, s.pins.inReset = false →
    (s.engine.run = none → exec .abort s = .next (s.refusedWith 0x1B 0x39 0))
      ∧ ∀ run : Run, s.engine.run = some run → s.requests.slot = none →
        (s.requests.queue = [] →
          exec .abort s = .next (setFlag .fail ((s.window 0x1B 0x01 (byte run.plan.val)).idleAfter (run.ended .aborted))))
          ∧ ∀ (e : QueueEntry) (l : List QueueEntry), s.requests.queue = e :: l → (s.plan e.plan).quiet ≠ 0 →
              exec .abort s = .next
                (setFlag .fail ((((s.window 0x1B 0x01 (byte run.plan.val)).idleAfter (run.ended .aborted)).setQueue l).quietRun e))

/-- ENGINE_RESET: the run ends RESET without a flag or a record, the queue, the slot and the DEFINING plan are emptied, and RESTART is set. -/
def Obligations.EngineResetClearsRunSide : Prop :=
  ∀ s : State, s.pins.inReset = false →
    ∃ s1 : State,
      s1 = { s.window 0x30 0x01 0 with
              engine := { run := none, quietT := none, stepT := none, holdT := none
                          report := match s.engine.run with
                            | none => s.engine.report
                            | some run => some (run.ended .reset) }
              requests := { s.requests with queue := [], slot := none } }
        ∧ (s.store.defining = none → exec .engineReset s = .next (setFlag .restart s1))
        ∧ ∀ p : PlanNo, s.store.defining = some p →
            exec .engineReset s = .next (setFlag .restart (((s1.setPlan p Plan.blank).setDefining none).setWriteCount 0))

/-! ### Reports -/

/-- LOG_POP removes the oldest record, gives its source in RDET, and recomputes FLT#. -/
def Obligations.LogPopRemovesOldest : Prop :=
  ∀ s : State, s.pins.inReset = false →
    (s.log.records = [] → exec .logPop s = .next (s.refusedWith 0x20 0x3B 0))
      ∧ ∀ (x : LogRecord) (l : List LogRecord), s.log.records = x :: l →
        ∃ t, exec .logPop s = .next t
          ∧ t = { s.window 0x20 0x01 (byte x.subject.source) with log := { s.log with records := l, flt := t.log.flt } }
          ∧ t.fltLaw

/-- SHED_ACK clears the SHED latch unless KILL# or a cut shed member stands. -/
def Obligations.ShedAckClearsLatch : Prop :=
  ∀ s : State, s.pins.inReset = false →
    (s.notify.shed = false → exec .shedAck s = .next (s.window 0x21 0x02 0))
      ∧ (s.notify.shed = true → s.pins.kill = true → exec .shedAck s = .next (s.refusedWith 0x21 0x3C 16))
      ∧ (s.notify.shed = true → s.pins.kill = false →
          (∀ r : Rail, (s.rail r).cfg.shedMember = true → (s.rail r).state = .faulted ∨ (s.rail r).state = .locked →
            (∀ x : Rail, x < r → (s.rail x).cfg.shedMember = true → (s.rail x).state ≠ .faulted ∧ (s.rail x).state ≠ .locked) →
              exec .shedAck s = .next (s.refusedWith 0x21 0x3C (railByte r)))
          ∧ ((∀ x : Rail, (s.rail x).cfg.shedMember = true → (s.rail x).state ≠ .faulted ∧ (s.rail x).state ≠ .locked) →
              exec .shedAck s = .next ((s.window 0x21 0x01 0).setNotify { s.notify with shed := false })))

/-! ### The register window -/

/-- A write to EVT clears the flags written 1, RAIL excepted; a write to RCHG0 or RCHG1 removes the rails written 1; a write to ECFG replaces its two
fields. INT# and FLT# are judged again; nothing else changes. -/
def Obligations.FlagAndConfigWrites : Prop :=
  (∀ (s : State) (v : Byte), s.pins.inReset = false → s.notify.flags.getLsbD 1 = false →
    ∃ t, exec (.evtWrite v) s = .next t ∧ t.intLaw
      ∧ t = s.setNotify { s.notify with flags := t.notify.flags, int := t.notify.int }
      ∧ t.notify.evt.getLsbD 1 = s.notify.evt.getLsbD 1
      ∧ ∀ i : Nat, i < 8 → i ≠ 1 → t.notify.evt.getLsbD i = (s.notify.evt.getLsbD i && !v.getLsbD i))
    ∧ (∀ (s : State) (upper : Bool) (v : Byte), s.pins.inReset = false →
      ∃ t, exec (.rchgWrite upper v) s = .next t ∧ t.intLaw
        ∧ t = s.setNotify { s.notify with changed := t.notify.changed, int := t.notify.int }
        ∧ ∀ r : Rail, RailSet.has t.notify.changed r =
            (RailSet.has s.notify.changed r && !(decide (8 ≤ r.val) == upper && v.getLsbD (r.val % 8))))
    ∧ ∀ (s : State) (v : Byte), s.pins.inReset = false →
      ∃ t, exec (.ecfgWrite v) s = .next t ∧ t.fltLaw
        ∧ t = { s with requests := { s.requests with pwrPlan := t.requests.pwrPlan, enginePin := v.getLsbD 7 }
                       log := { s.log with flt := t.log.flt } }
        ∧ (∀ p : PlanNo, t.requests.pwrPlan = some p ↔ v.toNat % 16 = p.val)

/-- A write to EVEN replaces all eight enables; it changes no flag, and INT# follows. -/
def Obligations.EvenWriteReplacesEnables : Prop :=
  ∀ (s : State) (v : Byte), s.pins.inReset = false →
    ∃ t, exec (.evenWrite v) s = .next t ∧ t.intLaw
      ∧ t = s.setNotify { s.notify with enables := v, int := t.notify.int }
      ∧ readRegister t 0x03 = v ∧ readRegister t 0x02 = readRegister s 0x02

/-- A write to TSEL or TIDX stores the byte, and takes a copy of the record then named when the table selected is read from a copy. -/
def Obligations.TableSelectionCopies : Prop :=
  ∀ (s : State) (v : Byte), s.pins.inReset = false →
    ∃ tsel tidx : State, exec (.tselWrite v) s = .next tsel ∧ exec (.tidxWrite v) s = .next tidx
      ∧ tsel = { s with bus := { s.bus with tsel := v, copy := tsel.bus.copy } }
      ∧ tidx = { s with bus := { s.bus with tidx := v, copy := tidx.bus.copy } }
      ∧ ∀ t ∈ [tsel, tidx],
        s.copyNamed t.bus.tsel t.bus.tidx t.bus.copy
          ∧ (t.bus.tsel.toNat ∉ [3, 6, 7, 8] → t.bus.copy = s.bus.copy)

/-- A read of TDATA gives the byte at TPTR of the table selected, live or from its copy, 0 beyond the record and where TIDX names no rail or plan, and
advances TPTR, which stays at 255. At TPTR 0 the copy is first taken of the record that TSEL and TIDX name. -/
def Obligations.TdataReadStepsThroughRecord : Prop :=
  ∀ s : State, s.pins.inReset = false →
    ∃ t, exec .tdataRead s = .next t
      ∧ t = { s with bus := { s.bus with tptr := t.bus.tptr, copy := t.bus.copy, lastRead := t.bus.lastRead } }
      ∧ t.bus.tptr.toNat = min (s.bus.tptr.toNat + 1) 255
      ∧ (∀ r : Rail, s.bus.tsel.toNat = 1 → s.bus.tidx = railByte r →
          t.bus.lastRead = ((encodeCfg (s.rail r).cfg)[s.bus.tptr.toNat]?).getD 0)
      ∧ (s.bus.tsel.toNat = 2 → t.bus.lastRead = (s.bus.staging[s.bus.tptr.toNat]?).getD 0)
      ∧ (∀ p : PlanNo, s.bus.tsel.toNat = 4 → s.bus.tidx = byte p.val →
          t.bus.lastRead = ((headerBytes (s.plan p) s.bus.writeCount)[s.bus.tptr.toNat]?).getD 0)
      ∧ (∀ p : PlanNo, s.bus.tsel.toNat = 5 → s.bus.tidx = byte p.val → t.bus.lastRead = (s.plan p).slotByte s.bus.tptr.toNat)
      ∧ (s.bus.tsel.toNat ∈ [3, 6, 7, 8] → t.bus.lastRead = (t.bus.copy[s.bus.tptr.toNat]?).getD 0)
      ∧ (s.bus.tptr ≠ 0 ∨ s.bus.tsel.toNat ∉ [3, 6, 7, 8] → t.bus.copy = s.bus.copy)
      ∧ (s.bus.tptr = 0 → s.copyNamed s.bus.tsel s.bus.tidx t.bus.copy)
      ∧ (s.bus.tsel.toNat = 1 → 16 ≤ s.bus.tidx.toNat → t.bus.lastRead = 0)
      ∧ (s.bus.tsel.toNat ∈ [4, 5] → 8 ≤ s.bus.tidx.toNat → t.bus.lastRead = 0)
      ∧ (s.bus.tsel = 0 ∨ 8 < s.bus.tsel.toNat → t.bus.lastRead = 0)

/-- A write to TDATA stores in the staging buffer, or in the step slot of the DEFINING plan, where it is counted; every other byte is ignored; TPTR
advances all the same. -/
def Obligations.TdataWriteStoresOrIgnores : Prop :=
  ∀ (s : State) (v : Byte), s.pins.inReset = false →
    ∃ t, exec (.tdataWrite v) s = .next t
      ∧ t.bus.tptr.toNat = min (s.bus.tptr.toNat + 1) 255
      ∧ (s.bus.tsel.toNat = 2 → s.bus.tptr.toNat < 20 →
          t = { s with bus := { s.bus with tptr := t.bus.tptr, staging := t.bus.staging } }
            ∧ ∀ i : Nat, (h : i < 20) → t.bus.staging[i] = if i = s.bus.tptr.toNat then v else s.bus.staging[i])
      ∧ (∀ p : PlanNo, s.bus.tsel.toNat = 5 → s.store.defining = some p → s.bus.tidx = byte p.val → s.bus.tptr.toNat < 64 →
          t.bus.writeCount.toNat = min (s.bus.writeCount.toNat + 1) 255
            ∧ (∀ i : Nat, i < 64 → (t.plan p).slotByte i = if i = s.bus.tptr.toNat then v else (s.plan p).slotByte i)
            ∧ t = { s.setPlan p { s.plan p with slot := (t.plan p).slot } with
                      bus := { s.bus with tptr := t.bus.tptr, writeCount := t.bus.writeCount } })
      ∧ ((s.bus.tsel.toNat ≠ 2 ∧ s.bus.tsel.toNat ≠ 5) ∨ (s.bus.tsel.toNat = 2 ∧ 20 ≤ s.bus.tptr.toNat)
            ∨ (s.bus.tsel.toNat = 5 ∧ 64 ≤ s.bus.tptr.toNat) ∨ (s.bus.tsel.toNat = 5 ∧ s.store.defining = none)
            ∨ (∃ p : PlanNo, s.bus.tsel.toNat = 5 ∧ s.store.defining = some p ∧ s.bus.tidx ≠ byte p.val) →
          t = { s with bus := { s.bus with tptr := t.bus.tptr } })

/-- A read of UPT0 takes the uptime snapshot, a read of the low byte of ENGST gives state and plan and takes the step index; QLEN, LOGN and PINST show
what they view; D0 to D7 are driven in a read cycle alone, with the byte that the read gives; a write to an operand register or to TPTR is stored
as written, and a write to a read-only or empty location is ignored. A REGISTER_WRITE to a location whose write is a row of its own acts as that row
(the model's choice, log entry 16). -/
def Obligations.SnapshotsAndPlainWrites : Prop :=
  ∀ s : State, s.pins.inReset = false →
    (∃ t, exec .upt0Read s = .next t
      ∧ t = { s with bus := { s.bus with uptimeLatch := t.bus.uptimeLatch, lastRead := t.bus.lastRead } }
      ∧ readRegister t 0x23 ++ readRegister t 0x22 ++ readRegister t 0x21 ++ t.bus.lastRead = s.log.uptime)
      ∧ (∃ t, exec .engstLowRead s = .next t
        ∧ t = { s with bus := { s.bus with engstLatch := readRegister t 0x11, lastRead := readRegister s 0x10 } }
        ∧ (s.engine.run = none → readRegister t 0x11 = 0 ∧ t.bus.lastRead = 0)
        ∧ ∀ run, s.engine.run = some run →
          (readRegister t 0x11).toNat = (if run.phase = .quiet then 0 else run.step.val)
            ∧ t.bus.lastRead.toNat =
                (match run.phase with
                  | .quiet => 1
                  | .waiting => 2
                  | .held => 3) + 8 + 16 * run.plan.val)
      ∧ ((s.requests.queue.length ≤ 4 → (readRegister s 0x12).toNat = s.requests.queue.length)
        ∧ (s.log.records.length ≤ 17 → (readRegister s 0x13).toNat = s.log.records.length)
        ∧ ∀ i : Nat, i < 8 → (readRegister s 0x14).getLsbD i =
            (match i with
              | 0 => s.pins.kill
              | 1 => s.pins.xf0
              | 2 => s.pins.xf1
              | 3 => s.pins.pwrreq
              | 4 => s.log.flt
              | 5 => s.notify.shed
              | _ => false))
      ∧ ((∀ (cs rd wr : Bool) (addr : Addr), (cs && rd && !wr) = false → busDrive cs rd wr addr s = none)
        ∧ (∀ addr : Addr, busDrive true true false addr s = some (readRegister s addr))
        ∧ ∀ (addr : Addr) (i : Instr), rowOfRead addr = some i → ∀ t : State, exec i s = .next t →
            busDrive true true false addr s = some t.bus.lastRead)
      ∧ (∀ v : Byte,
        exec (.registerWrite 0x0C v) s = .next { s with bus := { s.bus with arg0 := v } }
          ∧ exec (.registerWrite 0x0D v) s = .next { s with bus := { s.bus with arg1 := v } }
          ∧ exec (.registerWrite 0x0E v) s = .next { s with bus := { s.bus with arg2 := v } }
          ∧ exec (.registerWrite 0x0F v) s = .next { s with bus := { s.bus with arg3 := v } }
          ∧ exec (.registerWrite 0x1A v) s = .next { s with bus := { s.bus with tptr := v } })
      ∧ (∀ (addr : Addr) (v : Byte), (Instr.registerWrite addr v).wf = true → addr.toNat ∉ [0x0C, 0x0D, 0x0E, 0x0F, 0x1A] →
          exec (.registerWrite addr v) s = .next s)
      ∧ ∀ (addr : Addr) (v : Byte), exec (rowOfWrite addr v) s = exec (.registerWrite addr v) s

/-! ### Input pins -/

/-- An assertion edge of KILL#: every RAMPING or ON rail is lowered, every FAULTED rail goes LOCKED; the run ends KILLED, the queue and the slot are
emptied, and the SHED latch and the KILL flag are set. That the record of the run sets the FAULT flag is the model's choice (log entry 26). -/
def Obligations.KillAssertionTakesAllDown : Prop :=
  ∀ s : State, s.pins.inReset = false → s.pins.kill = false →
    ∀ (moved : List Rail) (s1 : State), moved = allRails.filter (fun r => (s.rail r).state.active || (s.rail r).state == .faulted) →
      s1 = { s.mapRails moved (fun r => if (s.rail r).state = .faulted then { s.rail r with state := .locked, retryT := none }
                                        else (s.rail r).lowered s.now) with
              pins := { s.pins with kill := true }
              requests := { s.requests with queue := [], slot := none } } →
      (s.engine.run = none →
        exec .killAssertionEdge s = .next
          (setFlag .kill (setShed ((s1.setEngineTimers none none none).told (RailSet.ofList moved)))))
      ∧ ∀ run : Run, s.engine.run = some run →
        exec .killAssertionEdge s = .next
          (setFlag .kill (setShed
            ((logEngine .killed run.role { plan := run.plan, step := if run.phase = .quiet then none else some run.step }
              (setFlag .fail (s1.idleAfter (run.ended .killed)))).told (RailSet.ofList moved))))

/-- A deassertion edge of KILL# sets the KILL flag, and nothing else changes but the level. -/
def Obligations.KillDeassertionSetsFlag : Prop :=
  ∀ s : State, s.pins.inReset = false → s.pins.kill = true →
    exec .killDeassertionEdge s = .next (setFlag .kill { s with pins := { s.pins with kill := false } })

/-- Edges of XF0# and XF1#: an assertion edge that no bound rail declares on changes the level alone; one that a single bound rail declares under REPORT is
recorded and disarmed; a deassertion edge arms EXT again in the bound rails that are RAMPING or ON. The counter of free values that an assertion edge
moves on is the model's own (log entry 4). -/
def Obligations.ExternalInputEdges : Prop :=
  ∀ (s : State) (x : XfInput), s.pins.inReset = false →
    (s.xf x = false →
      (∀ r : Rail, (s.rail r).cfg.binding = some x →
        (s.rail r).state.active = false ∨ (s.rail r).cfg.detect.ext = false ∨ (s.rail r).armExt = false) →
        exec (.xfAssertionEdge x) s = .next { s.setXf x true with freeIndex := s.freeIndex + 1 })
      ∧ (s.xf x = false → ∀ r : Rail, (∀ y : Rail, (s.rail y).cfg.binding = some x ↔ y = r) → (s.rail r).state.active = true →
          (s.rail r).cfg.detect.ext = true → (s.rail r).armExt = true → (s.rail r).cfg.response = .report →
          exec (.xfAssertionEdge x) s = .next
            (logRail r .ext (s.rail r).state none
              ({ s.setXf x true with freeIndex := s.freeIndex + 1 }.setRail r { s.rail r with armExt := false })))
      ∧ (s.xf x = true →
          exec (.xfDeassertionEdge x) s = .next
            ((s.setXf x false).mapRails
              (allRails.filter (fun r => (s.rail r).cfg.binding == some x && (s.rail r).state.active))
              (fun r => { s.rail r with armExt := true })))

/-- PWRREQ#: a falling edge is judged test by test, and asks for a NORMAL run of origin PIN; a rising edge changes the level alone. -/
def Obligations.PwrreqEdges : Prop :=
  ∀ s : State, s.pins.inReset = false →
    exec .pwrreqRisingEdge s = .next { s with pins := { s.pins with pwrreq := false } }
      ∧ (s.pins.pwrreq = false → ∀ s1 : State, s1 = { s with pins := { s.pins with pwrreq := true } } →
        (s.pins.kill = true ∨ s.requests.pwrPlan = none → exec .pwrreqFallingEdge s = .next s1)
          ∧ (s.pins.kill = false → ∀ p : PlanNo, s.requests.pwrPlan = some p →
            ((s.plan p).state ≠ .ready →
              exec .pwrreqFallingEdge s = .next (logEngine .planMissing .normal { plan := p, step := none } s1))
            ∧ ((s.plan p).state = .ready →
              ((∃ e ∈ s.requests.queue, e.plan = p) → exec .pwrreqFallingEdge s = .next s1)
              ∧ ((∀ e ∈ s.requests.queue, e.plan ≠ p) →
                (4 ≤ s.requests.queue.length →
                  exec .pwrreqFallingEdge s = .next (logEngine .requestLost .normal { plan := p, step := none } s1))
                ∧ (s.requests.queue.length < 4 → s.engine.run ≠ none →
                  exec .pwrreqFallingEdge s = .next
                    (s1.setQueue (s.requests.queue ++ [{ plan := p, origin := .pin, tag := none }])))
                ∧ (s.engine.run = none → s.noneWaiting = true → (s.plan p).quiet ≠ 0 →
                  exec .pwrreqFallingEdge s = .next (s1.quietRun { plan := p, origin := .pin, tag := none }))))))

/-! ### Arrivals -/

/-- A zone arrival in RAMPING and in ON that declares no fault, for a zone that the front end can report for the sensed voltage (log
entries 5 and 25). -/
def Obligations.ZoneArrivalWhileActive : Prop :=
  ∀ (s : State) (r : Rail) (z : Zone) (mv : Nat) (c : RailChan), s.pins.inReset = false → (s.rail r).mayReportZone z mv = true →
    (s.rail r).zone ≠ z → s.unawaited r = true →
    c = { (s.rail r).saw z mv with
                        armOv := (s.rail r).armOv || z != .high
                        armUv := (s.rail r).armUv || z == .good || z == .high } →
      ((s.rail r).state = .ramping → z = .good → c.cfg.settleTime ≠ 0 →
        exec (.zoneArrival r z mv) s = .next (s.setRail r { c with settleT := startTimer s.now c.cfg.settleTime }))
      ∧ ((s.rail r).state = .ramping → z = .good → c.cfg.settleTime = 0 →
        exec (.zoneArrival r z mv) s = .next
          (s.changedRail r { c with state := .on, en := true, dis := false, rampT := none, settleT := none }))
      ∧ ((s.rail r).state = .ramping → z = .zero ∨ z = .low ∨ (z = .high ∧ (c.cfg.detect.ov && c.armOv) = false) →
        exec (.zoneArrival r z mv) s = .next (s.setRail r { c with settleT := none }))
      ∧ ((s.rail r).state = .on → z = .good ∨ (z = .high ∧ (c.cfg.detect.ov && c.armOv) = false) →
        exec (.zoneArrival r z mv) s = .next (s.setRail r { c with uvT := none }))
      ∧ ((s.rail r).state = .on → z = .zero ∨ z = .low →
        ((c.cfg.detect.uv && c.armUv && c.uvT.isNone) = false → exec (.zoneArrival r z mv) s = .next (s.setRail r c))
        ∧ ((c.cfg.detect.uv && c.armUv && c.uvT.isNone) = true → c.cfg.filterTime ≠ 0 →
          exec (.zoneArrival r z mv) s = .next (s.setRail r { c with uvT := startTimer s.now c.cfg.filterTime })))

/-- A zone arrival in the other five states, for a zone that the front end can report for the sensed voltage (log entries 5 and 25). That the arms of OV
and UV stand still in these states is the model's reading (log entry 21). -/
def Obligations.ZoneArrivalWhileDown : Prop :=
  ∀ (s : State) (r : Rail) (z : Zone) (mv : Nat) (c : RailChan), s.pins.inReset = false → (s.rail r).mayReportZone z mv = true →
    (s.rail r).zone ≠ z → s.unawaited r = true → c = (s.rail r).saw z mv →
      ((s.rail r).state = .unused → exec (.zoneArrival r z mv) s = .next (s.setRail r c))
      ∧ ((s.rail r).state = .off →
        (z = .zero → exec (.zoneArrival r z mv) s = .next (s.setRail r { c with backfeedT := none, armBackfeed := true }))
        ∧ (z ≠ .zero → (c.cfg.detect.backfeed && c.armBackfeed && c.backfeedT.isNone) = false →
          exec (.zoneArrival r z mv) s = .next (s.setRail r c))
        ∧ (z ≠ .zero → (c.cfg.detect.backfeed && c.armBackfeed && c.backfeedT.isNone) = true → c.cfg.filterTime ≠ 0 →
          exec (.zoneArrival r z mv) s = .next (s.setRail r { c with backfeedT := startTimer s.now c.cfg.filterTime })))
      ∧ ((s.rail r).state = .lowering →
        (z ≠ .zero → exec (.zoneArrival r z mv) s = .next (s.setRail r c))
        ∧ (z = .zero → exec (.zoneArrival r z mv) s = .next (s.changedRail r c.wentOff)))
      ∧ ((s.rail r).state = .faulted ∨ (s.rail r).state = .locked → c.discharging = true →
        (z ≠ .zero → exec (.zoneArrival r z mv) s = .next (s.setRail r c))
        ∧ (z = .zero → exec (.zoneArrival r z mv) s = .next (s.setRail r
            { c with discharging := false, dis := false, dischargeT := none
                     retryT := if c.state = .faulted then startTimer s.now (10 * c.cfg.retryInterval) else c.retryT })))
      ∧ ((s.rail r).state = .locked → c.discharging = false → exec (.zoneArrival r z mv) s = .next (s.setRail r c))
      ∧ ((s.rail r).state = .faulted → c.discharging = false → c.retryT ≠ none → z ≠ .zero →
        exec (.zoneArrival r z mv) s = .next (s.setRail r
          { c with retryT := none, discharging := true, dis := true, dischargeT := startTimer s.now (10 * c.cfg.dischargeLimit) }))

/-- A HIGH arrival declares OV, and an assertion edge that a single bound rail takes declares EXT, at once, when the kind is in the set and armed: under
REPORT the rail is recorded and disarmed, else it is cut. Here the rail has no child, no fault plan and is not a shed member. The counter of free
values that the edge moves on is the model's own (log entry 4). -/
def Obligations.ArrivalDeclaresOvAndExt : Prop :=
  ∀ (s : State) (r : Rail), s.pins.inReset = false → (s.rail r).state.active = true → s.unawaited r = true →
    (∀ x : Rail, r ∉ (s.rail x).cfg.parents) → (s.rail r).cfg.faultPlan = none → (s.rail r).cfg.shedMember = false →
      (∀ (mv : Nat) (c : RailChan), (s.rail r).mayReportZone .high mv = true → (s.rail r).zone ≠ .high →
        c = { (s.rail r).saw .high mv with
                            armUv := true
                            settleT := if (s.rail r).state = .ramping then none else (s.rail r).settleT
                            uvT := if (s.rail r).state = .on then none else (s.rail r).uvT } →
        c.cfg.detect.ov = true → c.armOv = true →
          (c.cfg.response = .report →
            exec (.zoneArrival r .high mv) s = .next (logRail r .ov c.state none (s.setRail r { c with armOv := false })))
          ∧ (c.cfg.response ≠ .report →
            exec (.zoneArrival r .high mv) s = .next
              ((logRail r .ov c.state none (s.setRail r (c.cut s.now c.faultState .ov))).told (RailSet.add 0 r))))
      ∧ ∀ x : XfInput, s.xf x = false → (∀ y : Rail, (s.rail y).cfg.binding = some x ↔ y = r) → (s.rail r).cfg.detect.ext = true →
          (s.rail r).armExt = true → (s.rail r).cfg.response ≠ .report →
            exec (.xfAssertionEdge x) s = .next
              ((logRail r .ext (s.rail r).state none
                ({ s.setXf x true with freeIndex := s.freeIndex + 1 }.setRail r
                  ((s.rail r).cut s.now (s.rail r).faultState .ext))).told (RailSet.add 0 r))

/-- An over-current arrival: in RAMPING and ON an assertion starts the OC filter, and a deassertion cancels and arms it; in the other states only the flag
is kept. The flag is one that the front end can report for the sensed current (log entry 5). A report of a flag or a zone that was given within an
accuracy band is not gone back on within that band: such a report is no arrival (log entry 25). -/
def Obligations.OverCurrentArrivalFilters : Prop :=
  (∀ (s : State) (r : Rail) (b : Bool) (ma : Nat) (c : RailChan), s.pins.inReset = false →
    (s.rail r).mayReportFlag b ma = true → (s.rail r).overCurrent ≠ b → c = (s.rail r).sawFlag b ma →
      (c.state.active = false → exec (.overCurrentArrival r b ma) s = .next (s.setRail r c))
      ∧ (c.state.active = true →
        (b = false → exec (.overCurrentArrival r b ma) s = .next (s.setRail r { c with ocT := none, armOc := true }))
        ∧ (b = true → (c.cfg.detect.oc && c.armOc && c.ocT.isNone) = false →
          exec (.overCurrentArrival r b ma) s = .next (s.setRail r c))
        ∧ (b = true → (c.cfg.detect.oc && c.armOc && c.ocT.isNone) = true → c.cfg.filterTime ≠ 0 →
          exec (.overCurrentArrival r b ma) s = .next (s.setRail r { c with ocT := startTimer s.now c.cfg.filterTime }))
        ∧ (b = true → (c.cfg.detect.oc && c.armOc && c.ocT.isNone) = true → c.cfg.filterTime = 0 → c.cfg.response = .report →
          exec (.overCurrentArrival r b ma) s = .next (logRail r .oc c.state none (s.setRail r { c with armOc := false })))))
    ∧ (∀ (s : State) (r : Rail) (b : Bool) (ma ma' : Nat), s.pins.inReset = false → (s.rail r).mayReportFlag b ma = true →
      (s.rail r).overCurrent ≠ b → withinLimitBand (s.rail r).cfg ma = true → withinLimitBand (s.rail r).cfg ma' = true →
        ∀ t : State, exec (.overCurrentArrival r b ma) s = .next t → exec (.overCurrentArrival r (!b) ma') t = .next t)
    ∧ ∀ (s : State) (r : Rail) (l : Level) (z z' : Zone) (mv mv' : Nat), s.pins.inReset = false →
      (s.rail r).mayReportZone z mv = true → zoneAbove (s.rail r).zone l ≠ zoneAbove z l → zoneAbove z' l ≠ zoneAbove z l →
      withinBand ((s.rail r).cfg.level l) mv = true → withinBand ((s.rail r).cfg.level l) mv' = true →
        ∀ t : State, exec (.zoneArrival r z mv) s = .next t → exec (.zoneArrival r z' mv') t = .next t

/-! ### Expiries -/

/-- A settle expiry takes the rail to ON; an AWAIT_ON step that waits on that rail alone completes. -/
def Obligations.SettleExpiryEntersOn : Prop :=
  ∀ (s : State) (r : Rail) (c : RailChan), (s.rail r).state = .ramping → (s.rail r).settleT ≠ none →
    c = { s.rail r with state := .on, en := true, dis := false, rampT := none, settleT := none } →
      (s.unawaited r = true → exec (.settleExpiry r) s = .next (s.changedRail r c))
      ∧ ∀ run : Run, s.engine.run = some run → run.phase = .waiting → (s.stepRec run run.step.val).kind = some .awaitOn →
        run.selection = RailSet.add 0 r →
          ∃ t, exec (.settleExpiry r) s = .next t
            ∧ ((s.changedRail r c).setEngineTimers s.engine.quietT none s.engine.holdT).stepCompleted { run with selection := 0 } t

/-- A fault of a rail's own that REPORT does not keep up, by a UV or OC filter expiry or a ramp expiry: the rail is cut, its active descendants with it.
Records of other sources stand as they were, INT# is judged, and FLT# follows the log. -/
def Obligations.OwnFaultCutsAndCascades : Prop :=
  ∀ (s : State) (r : Rail) (i : Instr) (k : FaultKind) (cut : Rail → Prop), s.parentsBelow → s.engine.run = none →
    (s.rail r).cfg.faultPlan = none →
    ((i = .uvFilterExpiry r ∧ k = .uv ∧ (s.rail r).state = .on ∧ (s.rail r).uvT ≠ none ∧ (s.rail r).cfg.response ≠ .report)
      ∨ (i = .ocFilterExpiry r ∧ k = .oc ∧ (s.rail r).state.active = true ∧ (s.rail r).ocT ≠ none ∧ (s.rail r).cfg.response ≠ .report)
      ∨ (i = .rampExpiry r ∧ k = .rampTimeout ∧ (s.rail r).state = .ramping ∧ (s.rail r).rampT ≠ none)) →
    cut = (fun x => s.Ancestor r x ∧ (s.rail x).state.active = true) →
      ∃ t, exec i s = .next t
        ∧ t = { s with rails := t.rails, log := { s.log with records := t.log.records, flt := t.log.flt }, notify := t.notify }
        ∧ t.rail r = (s.rail r).cut s.now (s.rail r).faultState k
        ∧ (∀ x : Rail, cut x → t.rail x = (s.rail x).cut s.now .locked .cascade)
        ∧ (∀ x : Rail, x ≠ r → ¬ cut x → t.rail x = s.rail x)
        ∧ (∀ x : Rail, RailSet.has t.notify.changed x = true ↔ RailSet.has s.notify.changed x = true ∨ x = r ∨ cut x)
        ∧ t.notify.flags = s.notify.flags ||| 0x04 ∧ t.notify.enables = s.notify.enables
        ∧ (t.notify.shed = true ↔ s.notify.shed = true ∨ ∃ x : Rail, (x = r ∨ cut x) ∧ (s.rail x).cfg.shedMember = true)
        ∧ t.intLaw ∧ (s.fltLaw → t.fltLaw)
        ∧ (∀ y ∈ s.log.records, (∀ x : Rail, x = r ∨ cut x → y.subject.source ≠ x.val) → y ∈ t.log.records)
        ∧ (∀ y ∈ t.log.records, (∀ x : Rail, x = r ∨ cut x → y.subject.source ≠ x.val) → y ∈ s.log.records)
        ∧ (∃ y ∈ t.log.records, y.subject.source = r.val ∧ hasKind y.seen k.code = true ∧ y.lastTime = s.now)
        ∧ ((∀ y ∈ s.log.records, y.subject.source ≠ r.val) →
            { subject := .rail r k (s.rail r).state none, seen := kindBit k.code, repeats := 1, firstTime := s.now, lastTime := s.now
              context := none } ∈ t.log.records)
        ∧ (s.parentsOn → ∀ x : Rail, cut x → (∀ y ∈ s.log.records, y.subject.source ≠ x.val) →
            ∃ p : Rail, p ∈ (s.rail x).cfg.parents ∧ (p = r ∨ cut p) ∧ (∀ q ∈ (s.rail x).cfg.parents, q < p → q ≠ r ∧ ¬ cut q)
              ∧ { subject := .rail x .cascade (s.rail x).state (some p), seen := kindBit FaultKind.cascade.code, repeats := 1
                  firstTime := s.now, lastTime := s.now, context := none } ∈ t.log.records)

/-- Under REPORT a filter expiry is recorded and disarmed and the rail keeps its state; the record of a source that has none is opened at the tail, and a
second fault of a source merges into its record. -/
def Obligations.ReportRecordsAndDisarms : Prop :=
  ∀ (s : State) (r : Rail) (i : Instr) (k : FaultKind) (c : RailChan), (s.rail r).cfg.response = .report →
    c = (if k = .uv then { s.rail r with uvT := none, armUv := false } else { s.rail r with ocT := none, armOc := false }) →
    ((i = .uvFilterExpiry r ∧ k = .uv ∧ (s.rail r).state = .on ∧ (s.rail r).uvT ≠ none)
      ∨ (i = .ocFilterExpiry r ∧ k = .oc ∧ (s.rail r).state.active = true ∧ (s.rail r).ocT ≠ none)) →
      ((∀ y ∈ s.log.records, y.subject.source ≠ r.val) →
        ∃ t, exec i s = .next t ∧ t.fltLaw
          ∧ t = { setFlag .fault (s.setRail r c) with
                    log := { s.log with
                      flt := t.log.flt
                      records := s.log.records ++
                        [{ subject := .rail r k (s.rail r).state none, seen := kindBit k.code, repeats := 1, firstTime := s.now
                           lastTime := s.now
                           context := s.engine.run.map (fun run =>
                             { plan := run.plan, step := if run.phase = .quiet then none else some run.step }) }] } })
      ∧ ∀ (l l' : List LogRecord) (y : LogRecord), s.log.records = l ++ y :: l' → y.subject.source = r.val →
        (∀ z ∈ l ++ l', z.subject.source ≠ r.val) →
          exec i s = .next { setFlag .fault (s.setRail r c) with
            log := { s.log with
              records := l ++ { y with seen := y.seen ||| kindBit k.code, repeats := min (y.repeats + 1) 15, lastTime := s.now } :: l' } }

/-- Discharge, backfeed and retry expiries. -/
def Obligations.DischargeBackfeedRetryExpiries : Prop :=
  (∀ (s : State) (r : Rail) (c : RailChan), (s.rail r).dischargeT ≠ none → s.unawaited r = true →
    c = { s.rail r with state := .locked, dis := false, discharging := false, dischargeT := none
                        latched := (s.rail r).latched ||| kindBit FaultKind.dischargeTimeout.code
                        firstKind := if (s.rail r).latched = 0 then some .dischargeTimeout else (s.rail r).firstKind } →
      ((s.rail r).state = .lowering ∨ (s.rail r).state = .faulted →
        exec (.dischargeExpiry r) s = .next
          ((if (s.rail r).cfg.shedMember then setShed else id)
            ((logRail r .dischargeTimeout (s.rail r).state none (s.setRail r c)).told (RailSet.add 0 r))))
      ∧ ((s.rail r).state = .locked →
        exec (.dischargeExpiry r) s = .next (logRail r .dischargeTimeout .locked none (s.setRail r c))))
    ∧ (∀ (s : State) (r : Rail), (s.rail r).state = .off → (s.rail r).backfeedT ≠ none →
      exec (.backfeedFilterExpiry r) s = .next
        (logRail r .backfeed .off none (s.setRail r { s.rail r with backfeedT := none, armBackfeed := false })))
    ∧ ∀ (s : State) (r : Rail), (s.rail r).state = .faulted → (s.rail r).retryT ≠ none →
      ((¬ s.allParentsOn r ∨ s.pins.kill = true) →
        exec (.retryExpiry r) s = .next
          (s.setRail r { s.rail r with retryT := startTimer s.now (10 * (s.rail r).cfg.retryInterval) }))
      ∧ (s.allParentsOn r → s.pins.kill = false → (s.rail r).zone = .zero → s.nothingStands r = true → s.unawaited r = true →
        exec (.retryExpiry r) s = .next
          (s.changedRail r { (s.rail r).raised s.now with
            retries := (s.rail r).retries + 1, latched := 0, firstKind := none }))

/-- A quiet expiry starts step 0; the expiry of a PAUSE completes the step, which may hold, be the last, or be followed by the next; an AWAIT that times
out and a hold that expires fail the run, and the failure policy is judged. -/
def Obligations.EngineTimerExpiries : Prop :=
  ∀ (s : State) (run : Run), s.engine.run = some run →
    (run.phase = .quiet → s.engine.quietT ≠ none → 0 < (s.plan run.plan).length →
      ∃ t, exec .quietExpiry s = .next t ∧ (s.setEngineTimers none s.engine.stepT s.engine.holdT).stepStarted { run with step := 0 } t)
    ∧ (run.phase = .waiting → s.engine.stepT ≠ none → (s.stepRec run run.step.val).kind = some .pause →
      ∀ s1 : State, s1 = s.setEngineTimers s.engine.quietT none s.engine.holdT →
        ∃ t, exec .stepTimerExpiry s = .next t ∧ s1.stepCompleted { run with selection := 0 } t
          ∧ ((s.stepRec run run.step.val).holdAfter = false →
            ∀ i : StepNo, i.val = run.step.val + 1 → i.val < (s.plan run.plan).length →
              s1.stepStarted { run with step := i, selection := 0 } t))
    ∧ ∀ (i : Instr) (reason : Reason),
      ((i = .stepTimerExpiry ∧ reason = .awaitTimeout ∧ run.phase = .waiting ∧ s.engine.stepT ≠ none
          ∧ ((s.stepRec run run.step.val).kind = some .awaitOn ∨ (s.stepRec run run.step.val).kind = some .awaitOff))
        ∨ (i = .holdExpiry ∧ reason = .holdExpired ∧ run.phase = .held ∧ s.engine.holdT ≠ none)) →
      ∃ t, exec i s = .next t ∧ s.runFailedAt run (run.failedFor reason) t

/-- A ramp fault of a rail with a fault plan and no child: the request is judged by the run request unit. Where an urgent run starts at once, its first
step is a PAUSE. -/
def Obligations.FaultPlanRequestJudged : Prop :=
  ∀ (s : State) (r : Rail) (p : PlanNo), (s.rail r).state = .ramping → (s.rail r).rampT ≠ none → (s.rail r).cfg.faultPlan = some p →
    (∀ x : Rail, r ∉ (s.rail x).cfg.parents) → s.pins.kill = false → s.unawaited r = true →
    ((s.plan p).state = .ready → (∀ run, s.engine.run = some run → run.role ≠ .urgent) → s.pauseAt p 0 = true) →
      ∃ t, exec (.rampExpiry r) s = .next t ∧ t.rail r = (s.rail r).cut s.now (s.rail r).faultState .rampTimeout
        ∧ (∀ x : Rail, x ≠ r → t.rail x = s.rail x) ∧ RailSet.has t.notify.changed r = true
        ∧ t.store = s.store ∧ t.bus = s.bus ∧ t.pins = s.pins ∧ t.requests.queue = s.requests.queue
        ∧ ((s.plan p).state ≠ .ready →
            t.engine.run = s.engine.run ∧ t.requests = s.requests
              ∧ ∃ y ∈ t.log.records, y.subject.source = 16 ∧ hasKind y.seen EngineKind.planMissing.code = true ∧ y.lastTime = s.now)
        ∧ ((s.plan p).state = .ready →
            (s.engine.run = none →
              t.engine = ((s.setEngineTimers none none none).pausing (urgentRun p)).engine ∧ t.requests = s.requests)
            ∧ (∀ run, s.engine.run = some run → run.role ≠ .urgent →
              t.engine = ((s.idleAfter (run.ended .preempted)).pausing (urgentRun p)).engine ∧ t.requests = s.requests
                ∧ t.flag .fail = true
                ∧ ∃ y ∈ t.log.records, y.subject.source = 16 ∧ hasKind y.seen EngineKind.preempted.code = true ∧ y.lastTime = s.now)
            ∧ (∀ run, s.engine.run = some run → run.role = .urgent →
              t.engine.run = some run
                ∧ (s.requests.slot = none → t.requests = { s.requests with slot := some { plan := p, rail := r } })
                ∧ (∀ q, s.requests.slot = some q → t.requests = s.requests)
                ∧ (∀ q, s.requests.slot = some q → q.plan ≠ p →
                  ∃ y ∈ t.log.records, y.subject.source = 16 ∧ hasKind y.seen EngineKind.urgentLost.code = true
                    ∧ y.lastTime = s.now)))

end
end

