-- ==== Sys2Proof/Laws/State.lean ====
section
/-! SUPPORT. One lemma per field per update of the state, true by rfl, so that no proof unfolds a record update. -/

namespace Sys2Proof.Machine

/-! ### setRail -/

@[simp] theorem setRail_store (s : State) (r : Rail) (c : RailChan) : (s.setRail r c).store = s.store := rfl
@[simp] theorem setRail_engine (s : State) (r : Rail) (c : RailChan) : (s.setRail r c).engine = s.engine := rfl
@[simp] theorem setRail_requests (s : State) (r : Rail) (c : RailChan) : (s.setRail r c).requests = s.requests := rfl
@[simp] theorem setRail_log (s : State) (r : Rail) (c : RailChan) : (s.setRail r c).log = s.log := rfl
@[simp] theorem setRail_notify (s : State) (r : Rail) (c : RailChan) : (s.setRail r c).notify = s.notify := rfl
@[simp] theorem setRail_bus (s : State) (r : Rail) (c : RailChan) : (s.setRail r c).bus = s.bus := rfl
@[simp] theorem setRail_pins (s : State) (r : Rail) (c : RailChan) : (s.setRail r c).pins = s.pins := rfl
@[simp] theorem setRail_freeIndex (s : State) (r : Rail) (c : RailChan) : (s.setRail r c).freeIndex = s.freeIndex := rfl
@[simp] theorem setRail_pending (s : State) (r : Rail) (c : RailChan) : (s.setRail r c).pending = s.pending := rfl
@[simp] theorem setRail_plan (s : State) (r : Rail) (c : RailChan) (p' : PlanNo) : (s.setRail r c).plan p' = s.plan p' := rfl
@[simp] theorem setRail_ready (s : State) (r : Rail) (c : RailChan) (p' : PlanNo) : (s.setRail r c).ready p' = s.ready p' := rfl
@[simp] theorem setRail_now (s : State) (r : Rail) (c : RailChan) : (s.setRail r c).now = s.now := rfl

/-! ### setPlan -/

@[simp] theorem setPlan_rails (s : State) (p : PlanNo) (x : Plan) : (s.setPlan p x).rails = s.rails := rfl
@[simp] theorem setPlan_engine (s : State) (p : PlanNo) (x : Plan) : (s.setPlan p x).engine = s.engine := rfl
@[simp] theorem setPlan_requests (s : State) (p : PlanNo) (x : Plan) : (s.setPlan p x).requests = s.requests := rfl
@[simp] theorem setPlan_log (s : State) (p : PlanNo) (x : Plan) : (s.setPlan p x).log = s.log := rfl
@[simp] theorem setPlan_notify (s : State) (p : PlanNo) (x : Plan) : (s.setPlan p x).notify = s.notify := rfl
@[simp] theorem setPlan_bus (s : State) (p : PlanNo) (x : Plan) : (s.setPlan p x).bus = s.bus := rfl
@[simp] theorem setPlan_pins (s : State) (p : PlanNo) (x : Plan) : (s.setPlan p x).pins = s.pins := rfl
@[simp] theorem setPlan_freeIndex (s : State) (p : PlanNo) (x : Plan) : (s.setPlan p x).freeIndex = s.freeIndex := rfl
@[simp] theorem setPlan_pending (s : State) (p : PlanNo) (x : Plan) : (s.setPlan p x).pending = s.pending := rfl
@[simp] theorem setPlan_rail (s : State) (p : PlanNo) (x : Plan) (r' : Rail) : (s.setPlan p x).rail r' = s.rail r' := rfl
@[simp] theorem setPlan_now (s : State) (p : PlanNo) (x : Plan) : (s.setPlan p x).now = s.now := rfl

/-! ### setDefining -/

@[simp] theorem setDefining_rails (s : State) (m : Option PlanNo) : (s.setDefining m).rails = s.rails := rfl
@[simp] theorem setDefining_engine (s : State) (m : Option PlanNo) : (s.setDefining m).engine = s.engine := rfl
@[simp] theorem setDefining_requests (s : State) (m : Option PlanNo) : (s.setDefining m).requests = s.requests := rfl
@[simp] theorem setDefining_log (s : State) (m : Option PlanNo) : (s.setDefining m).log = s.log := rfl
@[simp] theorem setDefining_notify (s : State) (m : Option PlanNo) : (s.setDefining m).notify = s.notify := rfl
@[simp] theorem setDefining_bus (s : State) (m : Option PlanNo) : (s.setDefining m).bus = s.bus := rfl
@[simp] theorem setDefining_pins (s : State) (m : Option PlanNo) : (s.setDefining m).pins = s.pins := rfl
@[simp] theorem setDefining_freeIndex (s : State) (m : Option PlanNo) : (s.setDefining m).freeIndex = s.freeIndex := rfl
@[simp] theorem setDefining_pending (s : State) (m : Option PlanNo) : (s.setDefining m).pending = s.pending := rfl
@[simp] theorem setDefining_rail (s : State) (m : Option PlanNo) (r' : Rail) : (s.setDefining m).rail r' = s.rail r' := rfl
@[simp] theorem setDefining_now (s : State) (m : Option PlanNo) : (s.setDefining m).now = s.now := rfl

/-! ### setWriteCount -/

@[simp] theorem setWriteCount_rails (s : State) (b : Byte) : (s.setWriteCount b).rails = s.rails := rfl
@[simp] theorem setWriteCount_store (s : State) (b : Byte) : (s.setWriteCount b).store = s.store := rfl
@[simp] theorem setWriteCount_engine (s : State) (b : Byte) : (s.setWriteCount b).engine = s.engine := rfl
@[simp] theorem setWriteCount_requests (s : State) (b : Byte) : (s.setWriteCount b).requests = s.requests := rfl
@[simp] theorem setWriteCount_log (s : State) (b : Byte) : (s.setWriteCount b).log = s.log := rfl
@[simp] theorem setWriteCount_notify (s : State) (b : Byte) : (s.setWriteCount b).notify = s.notify := rfl
@[simp] theorem setWriteCount_pins (s : State) (b : Byte) : (s.setWriteCount b).pins = s.pins := rfl
@[simp] theorem setWriteCount_freeIndex (s : State) (b : Byte) : (s.setWriteCount b).freeIndex = s.freeIndex := rfl
@[simp] theorem setWriteCount_pending (s : State) (b : Byte) : (s.setWriteCount b).pending = s.pending := rfl
@[simp] theorem setWriteCount_rail (s : State) (b : Byte) (r' : Rail) : (s.setWriteCount b).rail r' = s.rail r' := rfl
@[simp] theorem setWriteCount_plan (s : State) (b : Byte) (p' : PlanNo) : (s.setWriteCount b).plan p' = s.plan p' := rfl
@[simp] theorem setWriteCount_ready (s : State) (b : Byte) (p' : PlanNo) : (s.setWriteCount b).ready p' = s.ready p' := rfl
@[simp] theorem setWriteCount_now (s : State) (b : Byte) : (s.setWriteCount b).now = s.now := rfl

/-! ### setXf -/

@[simp] theorem setXf_rails (s : State) (x : XfInput) (b : Bool) : (s.setXf x b).rails = s.rails := by cases x <;> rfl
@[simp] theorem setXf_store (s : State) (x : XfInput) (b : Bool) : (s.setXf x b).store = s.store := by cases x <;> rfl
@[simp] theorem setXf_engine (s : State) (x : XfInput) (b : Bool) : (s.setXf x b).engine = s.engine := by cases x <;> rfl
@[simp] theorem setXf_requests (s : State) (x : XfInput) (b : Bool) : (s.setXf x b).requests = s.requests := by cases x <;> rfl
@[simp] theorem setXf_log (s : State) (x : XfInput) (b : Bool) : (s.setXf x b).log = s.log := by cases x <;> rfl
@[simp] theorem setXf_notify (s : State) (x : XfInput) (b : Bool) : (s.setXf x b).notify = s.notify := by cases x <;> rfl
@[simp] theorem setXf_bus (s : State) (x : XfInput) (b : Bool) : (s.setXf x b).bus = s.bus := by cases x <;> rfl
@[simp] theorem setXf_freeIndex (s : State) (x : XfInput) (b : Bool) : (s.setXf x b).freeIndex = s.freeIndex := by cases x <;> rfl
@[simp] theorem setXf_pending (s : State) (x : XfInput) (b : Bool) : (s.setXf x b).pending = s.pending := by cases x <;> rfl
@[simp] theorem setXf_rail (s : State) (x : XfInput) (b : Bool) (r' : Rail) : (s.setXf x b).rail r' = s.rail r' := by cases x <;> rfl
@[simp] theorem setXf_plan (s : State) (x : XfInput) (b : Bool) (p' : PlanNo) : (s.setXf x b).plan p' = s.plan p' := by cases x <;> rfl
@[simp] theorem setXf_ready (s : State) (x : XfInput) (b : Bool) (p' : PlanNo) : (s.setXf x b).ready p' = s.ready p' := by cases x <;> rfl
@[simp] theorem setXf_now (s : State) (x : XfInput) (b : Bool) : (s.setXf x b).now = s.now := by cases x <;> rfl

/-! ### setRun -/

@[simp] theorem setRun_rails (s : State) (x : Option Run) : (s.setRun x).rails = s.rails := rfl
@[simp] theorem setRun_store (s : State) (x : Option Run) : (s.setRun x).store = s.store := rfl
@[simp] theorem setRun_requests (s : State) (x : Option Run) : (s.setRun x).requests = s.requests := rfl
@[simp] theorem setRun_log (s : State) (x : Option Run) : (s.setRun x).log = s.log := rfl
@[simp] theorem setRun_notify (s : State) (x : Option Run) : (s.setRun x).notify = s.notify := rfl
@[simp] theorem setRun_bus (s : State) (x : Option Run) : (s.setRun x).bus = s.bus := rfl
@[simp] theorem setRun_pins (s : State) (x : Option Run) : (s.setRun x).pins = s.pins := rfl
@[simp] theorem setRun_freeIndex (s : State) (x : Option Run) : (s.setRun x).freeIndex = s.freeIndex := rfl
@[simp] theorem setRun_pending (s : State) (x : Option Run) : (s.setRun x).pending = s.pending := rfl
@[simp] theorem setRun_rail (s : State) (x : Option Run) (r' : Rail) : (s.setRun x).rail r' = s.rail r' := rfl
@[simp] theorem setRun_plan (s : State) (x : Option Run) (p' : PlanNo) : (s.setRun x).plan p' = s.plan p' := rfl
@[simp] theorem setRun_ready (s : State) (x : Option Run) (p' : PlanNo) : (s.setRun x).ready p' = s.ready p' := rfl
@[simp] theorem setRun_now (s : State) (x : Option Run) : (s.setRun x).now = s.now := rfl

/-! ### setEngineTimers -/

@[simp] theorem setEngineTimers_rails (s : State) (a b c : Option Timer) : (s.setEngineTimers a b c).rails = s.rails := rfl
@[simp] theorem setEngineTimers_store (s : State) (a b c : Option Timer) : (s.setEngineTimers a b c).store = s.store := rfl
@[simp] theorem setEngineTimers_requests (s : State) (a b c : Option Timer) : (s.setEngineTimers a b c).requests = s.requests := rfl
@[simp] theorem setEngineTimers_log (s : State) (a b c : Option Timer) : (s.setEngineTimers a b c).log = s.log := rfl
@[simp] theorem setEngineTimers_notify (s : State) (a b c : Option Timer) : (s.setEngineTimers a b c).notify = s.notify := rfl
@[simp] theorem setEngineTimers_bus (s : State) (a b c : Option Timer) : (s.setEngineTimers a b c).bus = s.bus := rfl
@[simp] theorem setEngineTimers_pins (s : State) (a b c : Option Timer) : (s.setEngineTimers a b c).pins = s.pins := rfl
@[simp] theorem setEngineTimers_freeIndex (s : State) (a b c : Option Timer) : (s.setEngineTimers a b c).freeIndex = s.freeIndex := rfl
@[simp] theorem setEngineTimers_pending (s : State) (a b c : Option Timer) : (s.setEngineTimers a b c).pending = s.pending := rfl
@[simp] theorem setEngineTimers_rail (s : State) (a b c : Option Timer) (r' : Rail) : (s.setEngineTimers a b c).rail r' = s.rail r' := rfl
@[simp] theorem setEngineTimers_plan (s : State) (a b c : Option Timer) (p' : PlanNo) : (s.setEngineTimers a b c).plan p' = s.plan p' := rfl
@[simp] theorem setEngineTimers_ready (s : State) (a b c : Option Timer) (p' : PlanNo) : (s.setEngineTimers a b c).ready p' = s.ready p' := rfl
@[simp] theorem setEngineTimers_now (s : State) (a b c : Option Timer) : (s.setEngineTimers a b c).now = s.now := rfl

/-! ### setReport -/

@[simp] theorem setReport_rails (s : State) (x : Report) : (s.setReport x).rails = s.rails := rfl
@[simp] theorem setReport_store (s : State) (x : Report) : (s.setReport x).store = s.store := rfl
@[simp] theorem setReport_requests (s : State) (x : Report) : (s.setReport x).requests = s.requests := rfl
@[simp] theorem setReport_log (s : State) (x : Report) : (s.setReport x).log = s.log := rfl
@[simp] theorem setReport_notify (s : State) (x : Report) : (s.setReport x).notify = s.notify := rfl
@[simp] theorem setReport_bus (s : State) (x : Report) : (s.setReport x).bus = s.bus := rfl
@[simp] theorem setReport_pins (s : State) (x : Report) : (s.setReport x).pins = s.pins := rfl
@[simp] theorem setReport_freeIndex (s : State) (x : Report) : (s.setReport x).freeIndex = s.freeIndex := rfl
@[simp] theorem setReport_pending (s : State) (x : Report) : (s.setReport x).pending = s.pending := rfl
@[simp] theorem setReport_rail (s : State) (x : Report) (r' : Rail) : (s.setReport x).rail r' = s.rail r' := rfl
@[simp] theorem setReport_plan (s : State) (x : Report) (p' : PlanNo) : (s.setReport x).plan p' = s.plan p' := rfl
@[simp] theorem setReport_ready (s : State) (x : Report) (p' : PlanNo) : (s.setReport x).ready p' = s.ready p' := rfl
@[simp] theorem setReport_now (s : State) (x : Report) : (s.setReport x).now = s.now := rfl

/-! ### setQueue -/

@[simp] theorem setQueue_rails (s : State) (q : List QueueEntry) : (s.setQueue q).rails = s.rails := rfl
@[simp] theorem setQueue_store (s : State) (q : List QueueEntry) : (s.setQueue q).store = s.store := rfl
@[simp] theorem setQueue_engine (s : State) (q : List QueueEntry) : (s.setQueue q).engine = s.engine := rfl
@[simp] theorem setQueue_log (s : State) (q : List QueueEntry) : (s.setQueue q).log = s.log := rfl
@[simp] theorem setQueue_notify (s : State) (q : List QueueEntry) : (s.setQueue q).notify = s.notify := rfl
@[simp] theorem setQueue_bus (s : State) (q : List QueueEntry) : (s.setQueue q).bus = s.bus := rfl
@[simp] theorem setQueue_pins (s : State) (q : List QueueEntry) : (s.setQueue q).pins = s.pins := rfl
@[simp] theorem setQueue_freeIndex (s : State) (q : List QueueEntry) : (s.setQueue q).freeIndex = s.freeIndex := rfl
@[simp] theorem setQueue_pending (s : State) (q : List QueueEntry) : (s.setQueue q).pending = s.pending := rfl
@[simp] theorem setQueue_rail (s : State) (q : List QueueEntry) (r' : Rail) : (s.setQueue q).rail r' = s.rail r' := rfl
@[simp] theorem setQueue_plan (s : State) (q : List QueueEntry) (p' : PlanNo) : (s.setQueue q).plan p' = s.plan p' := rfl
@[simp] theorem setQueue_ready (s : State) (q : List QueueEntry) (p' : PlanNo) : (s.setQueue q).ready p' = s.ready p' := rfl
@[simp] theorem setQueue_now (s : State) (q : List QueueEntry) : (s.setQueue q).now = s.now := rfl

/-! ### setSlot -/

@[simp] theorem setSlot_rails (s : State) (q : Option PlanRequest) : (s.setSlot q).rails = s.rails := rfl
@[simp] theorem setSlot_store (s : State) (q : Option PlanRequest) : (s.setSlot q).store = s.store := rfl
@[simp] theorem setSlot_engine (s : State) (q : Option PlanRequest) : (s.setSlot q).engine = s.engine := rfl
@[simp] theorem setSlot_log (s : State) (q : Option PlanRequest) : (s.setSlot q).log = s.log := rfl
@[simp] theorem setSlot_notify (s : State) (q : Option PlanRequest) : (s.setSlot q).notify = s.notify := rfl
@[simp] theorem setSlot_bus (s : State) (q : Option PlanRequest) : (s.setSlot q).bus = s.bus := rfl
@[simp] theorem setSlot_pins (s : State) (q : Option PlanRequest) : (s.setSlot q).pins = s.pins := rfl
@[simp] theorem setSlot_freeIndex (s : State) (q : Option PlanRequest) : (s.setSlot q).freeIndex = s.freeIndex := rfl
@[simp] theorem setSlot_pending (s : State) (q : Option PlanRequest) : (s.setSlot q).pending = s.pending := rfl
@[simp] theorem setSlot_rail (s : State) (q : Option PlanRequest) (r' : Rail) : (s.setSlot q).rail r' = s.rail r' := rfl
@[simp] theorem setSlot_plan (s : State) (q : Option PlanRequest) (p' : PlanNo) : (s.setSlot q).plan p' = s.plan p' := rfl
@[simp] theorem setSlot_ready (s : State) (q : Option PlanRequest) (p' : PlanNo) : (s.setSlot q).ready p' = s.ready p' := rfl
@[simp] theorem setSlot_now (s : State) (q : Option PlanRequest) : (s.setSlot q).now = s.now := rfl

/-! ### setNotify -/

@[simp] theorem setNotify_rails (s : State) (n : Notify) : (s.setNotify n).rails = s.rails := rfl
@[simp] theorem setNotify_store (s : State) (n : Notify) : (s.setNotify n).store = s.store := rfl
@[simp] theorem setNotify_engine (s : State) (n : Notify) : (s.setNotify n).engine = s.engine := rfl
@[simp] theorem setNotify_requests (s : State) (n : Notify) : (s.setNotify n).requests = s.requests := rfl
@[simp] theorem setNotify_log (s : State) (n : Notify) : (s.setNotify n).log = s.log := rfl
@[simp] theorem setNotify_bus (s : State) (n : Notify) : (s.setNotify n).bus = s.bus := rfl
@[simp] theorem setNotify_pins (s : State) (n : Notify) : (s.setNotify n).pins = s.pins := rfl
@[simp] theorem setNotify_freeIndex (s : State) (n : Notify) : (s.setNotify n).freeIndex = s.freeIndex := rfl
@[simp] theorem setNotify_pending (s : State) (n : Notify) : (s.setNotify n).pending = s.pending := rfl
@[simp] theorem setNotify_rail (s : State) (n : Notify) (r' : Rail) : (s.setNotify n).rail r' = s.rail r' := rfl
@[simp] theorem setNotify_plan (s : State) (n : Notify) (p' : PlanNo) : (s.setNotify n).plan p' = s.plan p' := rfl
@[simp] theorem setNotify_ready (s : State) (n : Notify) (p' : PlanNo) : (s.setNotify n).ready p' = s.ready p' := rfl
@[simp] theorem setNotify_now (s : State) (n : Notify) : (s.setNotify n).now = s.now := rfl

/-! ### setFlag -/

@[simp] theorem setFlag_rails (s : State) (f : EventFlag) : (setFlag f s).rails = s.rails := rfl
@[simp] theorem setFlag_store (s : State) (f : EventFlag) : (setFlag f s).store = s.store := rfl
@[simp] theorem setFlag_engine (s : State) (f : EventFlag) : (setFlag f s).engine = s.engine := rfl
@[simp] theorem setFlag_requests (s : State) (f : EventFlag) : (setFlag f s).requests = s.requests := rfl
@[simp] theorem setFlag_log (s : State) (f : EventFlag) : (setFlag f s).log = s.log := rfl
@[simp] theorem setFlag_bus (s : State) (f : EventFlag) : (setFlag f s).bus = s.bus := rfl
@[simp] theorem setFlag_pins (s : State) (f : EventFlag) : (setFlag f s).pins = s.pins := rfl
@[simp] theorem setFlag_freeIndex (s : State) (f : EventFlag) : (setFlag f s).freeIndex = s.freeIndex := rfl
@[simp] theorem setFlag_pending (s : State) (f : EventFlag) : (setFlag f s).pending = s.pending := rfl
@[simp] theorem setFlag_rail (s : State) (f : EventFlag) (r' : Rail) : (setFlag f s).rail r' = s.rail r' := rfl
@[simp] theorem setFlag_plan (s : State) (f : EventFlag) (p' : PlanNo) : (setFlag f s).plan p' = s.plan p' := rfl
@[simp] theorem setFlag_ready (s : State) (f : EventFlag) (p' : PlanNo) : (setFlag f s).ready p' = s.ready p' := rfl
@[simp] theorem setFlag_now (s : State) (f : EventFlag) : (setFlag f s).now = s.now := rfl

/-! ### addChanged -/

@[simp] theorem addChanged_rails (s : State) (r : Rail) : (addChanged r s).rails = s.rails := rfl
@[simp] theorem addChanged_store (s : State) (r : Rail) : (addChanged r s).store = s.store := rfl
@[simp] theorem addChanged_engine (s : State) (r : Rail) : (addChanged r s).engine = s.engine := rfl
@[simp] theorem addChanged_requests (s : State) (r : Rail) : (addChanged r s).requests = s.requests := rfl
@[simp] theorem addChanged_log (s : State) (r : Rail) : (addChanged r s).log = s.log := rfl
@[simp] theorem addChanged_bus (s : State) (r : Rail) : (addChanged r s).bus = s.bus := rfl
@[simp] theorem addChanged_pins (s : State) (r : Rail) : (addChanged r s).pins = s.pins := rfl
@[simp] theorem addChanged_freeIndex (s : State) (r : Rail) : (addChanged r s).freeIndex = s.freeIndex := rfl
@[simp] theorem addChanged_pending (s : State) (r : Rail) : (addChanged r s).pending = s.pending := rfl
@[simp] theorem addChanged_rail (s : State) (r : Rail) (r' : Rail) : (addChanged r s).rail r' = s.rail r' := rfl
@[simp] theorem addChanged_plan (s : State) (r : Rail) (p' : PlanNo) : (addChanged r s).plan p' = s.plan p' := rfl
@[simp] theorem addChanged_ready (s : State) (r : Rail) (p' : PlanNo) : (addChanged r s).ready p' = s.ready p' := rfl
@[simp] theorem addChanged_now (s : State) (r : Rail) : (addChanged r s).now = s.now := rfl

/-! ### setShed -/

@[simp] theorem setShed_rails (s : State) : (setShed s).rails = s.rails := rfl
@[simp] theorem setShed_store (s : State) : (setShed s).store = s.store := rfl
@[simp] theorem setShed_engine (s : State) : (setShed s).engine = s.engine := rfl
@[simp] theorem setShed_requests (s : State) : (setShed s).requests = s.requests := rfl
@[simp] theorem setShed_log (s : State) : (setShed s).log = s.log := rfl
@[simp] theorem setShed_bus (s : State) : (setShed s).bus = s.bus := rfl
@[simp] theorem setShed_pins (s : State) : (setShed s).pins = s.pins := rfl
@[simp] theorem setShed_freeIndex (s : State) : (setShed s).freeIndex = s.freeIndex := rfl
@[simp] theorem setShed_pending (s : State) : (setShed s).pending = s.pending := rfl
@[simp] theorem setShed_rail (s : State) (r' : Rail) : (setShed s).rail r' = s.rail r' := rfl
@[simp] theorem setShed_plan (s : State) (p' : PlanNo) : (setShed s).plan p' = s.plan p' := rfl
@[simp] theorem setShed_ready (s : State) (p' : PlanNo) : (setShed s).ready p' = s.ready p' := rfl
@[simp] theorem setShed_now (s : State) : (setShed s).now = s.now := rfl

/-! ### setRecords -/

@[simp] theorem setRecords_rails (s : State) (l : List LogRecord) : (s.setRecords l).rails = s.rails := rfl
@[simp] theorem setRecords_store (s : State) (l : List LogRecord) : (s.setRecords l).store = s.store := rfl
@[simp] theorem setRecords_engine (s : State) (l : List LogRecord) : (s.setRecords l).engine = s.engine := rfl
@[simp] theorem setRecords_requests (s : State) (l : List LogRecord) : (s.setRecords l).requests = s.requests := rfl
@[simp] theorem setRecords_notify (s : State) (l : List LogRecord) : (s.setRecords l).notify = s.notify := rfl
@[simp] theorem setRecords_bus (s : State) (l : List LogRecord) : (s.setRecords l).bus = s.bus := rfl
@[simp] theorem setRecords_pins (s : State) (l : List LogRecord) : (s.setRecords l).pins = s.pins := rfl
@[simp] theorem setRecords_freeIndex (s : State) (l : List LogRecord) : (s.setRecords l).freeIndex = s.freeIndex := rfl
@[simp] theorem setRecords_pending (s : State) (l : List LogRecord) : (s.setRecords l).pending = s.pending := rfl
@[simp] theorem setRecords_rail (s : State) (l : List LogRecord) (r' : Rail) : (s.setRecords l).rail r' = s.rail r' := rfl
@[simp] theorem setRecords_plan (s : State) (l : List LogRecord) (p' : PlanNo) : (s.setRecords l).plan p' = s.plan p' := rfl
@[simp] theorem setRecords_ready (s : State) (l : List LogRecord) (p' : PlanNo) : (s.setRecords l).ready p' = s.ready p' := rfl

/-! ### recomputeFlt -/

@[simp] theorem recomputeFlt_rails (s : State) : (recomputeFlt s).rails = s.rails := rfl
@[simp] theorem recomputeFlt_store (s : State) : (recomputeFlt s).store = s.store := rfl
@[simp] theorem recomputeFlt_engine (s : State) : (recomputeFlt s).engine = s.engine := rfl
@[simp] theorem recomputeFlt_requests (s : State) : (recomputeFlt s).requests = s.requests := rfl
@[simp] theorem recomputeFlt_notify (s : State) : (recomputeFlt s).notify = s.notify := rfl
@[simp] theorem recomputeFlt_bus (s : State) : (recomputeFlt s).bus = s.bus := rfl
@[simp] theorem recomputeFlt_pins (s : State) : (recomputeFlt s).pins = s.pins := rfl
@[simp] theorem recomputeFlt_freeIndex (s : State) : (recomputeFlt s).freeIndex = s.freeIndex := rfl
@[simp] theorem recomputeFlt_pending (s : State) : (recomputeFlt s).pending = s.pending := rfl
@[simp] theorem recomputeFlt_rail (s : State) (r' : Rail) : (recomputeFlt s).rail r' = s.rail r' := rfl
@[simp] theorem recomputeFlt_plan (s : State) (p' : PlanNo) : (recomputeFlt s).plan p' = s.plan p' := rfl
@[simp] theorem recomputeFlt_ready (s : State) (p' : PlanNo) : (recomputeFlt s).ready p' = s.ready p' := rfl

/-! ### setStaging -/

@[simp] theorem setStaging_rails (s : State) (v : Vector Byte 20) : (s.setStaging v).rails = s.rails := rfl
@[simp] theorem setStaging_store (s : State) (v : Vector Byte 20) : (s.setStaging v).store = s.store := rfl
@[simp] theorem setStaging_engine (s : State) (v : Vector Byte 20) : (s.setStaging v).engine = s.engine := rfl
@[simp] theorem setStaging_requests (s : State) (v : Vector Byte 20) : (s.setStaging v).requests = s.requests := rfl
@[simp] theorem setStaging_log (s : State) (v : Vector Byte 20) : (s.setStaging v).log = s.log := rfl
@[simp] theorem setStaging_notify (s : State) (v : Vector Byte 20) : (s.setStaging v).notify = s.notify := rfl
@[simp] theorem setStaging_pins (s : State) (v : Vector Byte 20) : (s.setStaging v).pins = s.pins := rfl
@[simp] theorem setStaging_freeIndex (s : State) (v : Vector Byte 20) : (s.setStaging v).freeIndex = s.freeIndex := rfl
@[simp] theorem setStaging_pending (s : State) (v : Vector Byte 20) : (s.setStaging v).pending = s.pending := rfl
@[simp] theorem setStaging_rail (s : State) (v : Vector Byte 20) (r' : Rail) : (s.setStaging v).rail r' = s.rail r' := rfl
@[simp] theorem setStaging_plan (s : State) (v : Vector Byte 20) (p' : PlanNo) : (s.setStaging v).plan p' = s.plan p' := rfl
@[simp] theorem setStaging_ready (s : State) (v : Vector Byte 20) (p' : PlanNo) : (s.setStaging v).ready p' = s.ready p' := rfl
@[simp] theorem setStaging_now (s : State) (v : Vector Byte 20) : (s.setStaging v).now = s.now := rfl

/-! ### setKill -/

@[simp] theorem setKill_rails (s : State) (b : Bool) : (s.setKill b).rails = s.rails := rfl
@[simp] theorem setKill_store (s : State) (b : Bool) : (s.setKill b).store = s.store := rfl
@[simp] theorem setKill_engine (s : State) (b : Bool) : (s.setKill b).engine = s.engine := rfl
@[simp] theorem setKill_requests (s : State) (b : Bool) : (s.setKill b).requests = s.requests := rfl
@[simp] theorem setKill_log (s : State) (b : Bool) : (s.setKill b).log = s.log := rfl
@[simp] theorem setKill_notify (s : State) (b : Bool) : (s.setKill b).notify = s.notify := rfl
@[simp] theorem setKill_bus (s : State) (b : Bool) : (s.setKill b).bus = s.bus := rfl
@[simp] theorem setKill_freeIndex (s : State) (b : Bool) : (s.setKill b).freeIndex = s.freeIndex := rfl
@[simp] theorem setKill_pending (s : State) (b : Bool) : (s.setKill b).pending = s.pending := rfl
@[simp] theorem setKill_rail (s : State) (b : Bool) (r' : Rail) : (s.setKill b).rail r' = s.rail r' := rfl
@[simp] theorem setKill_plan (s : State) (b : Bool) (p' : PlanNo) : (s.setKill b).plan p' = s.plan p' := rfl
@[simp] theorem setKill_ready (s : State) (b : Bool) (p' : PlanNo) : (s.setKill b).ready p' = s.ready p' := rfl
@[simp] theorem setKill_now (s : State) (b : Bool) : (s.setKill b).now = s.now := rfl

/-! ### setReset -/

@[simp] theorem setReset_rails (s : State) (b : Bool) : (s.setReset b).rails = s.rails := rfl
@[simp] theorem setReset_store (s : State) (b : Bool) : (s.setReset b).store = s.store := rfl
@[simp] theorem setReset_engine (s : State) (b : Bool) : (s.setReset b).engine = s.engine := rfl
@[simp] theorem setReset_requests (s : State) (b : Bool) : (s.setReset b).requests = s.requests := rfl
@[simp] theorem setReset_log (s : State) (b : Bool) : (s.setReset b).log = s.log := rfl
@[simp] theorem setReset_notify (s : State) (b : Bool) : (s.setReset b).notify = s.notify := rfl
@[simp] theorem setReset_bus (s : State) (b : Bool) : (s.setReset b).bus = s.bus := rfl
@[simp] theorem setReset_freeIndex (s : State) (b : Bool) : (s.setReset b).freeIndex = s.freeIndex := rfl
@[simp] theorem setReset_pending (s : State) (b : Bool) : (s.setReset b).pending = s.pending := rfl
@[simp] theorem setReset_rail (s : State) (b : Bool) (r' : Rail) : (s.setReset b).rail r' = s.rail r' := rfl
@[simp] theorem setReset_plan (s : State) (b : Bool) (p' : PlanNo) : (s.setReset b).plan p' = s.plan p' := rfl
@[simp] theorem setReset_ready (s : State) (b : Bool) (p' : PlanNo) : (s.setReset b).ready p' = s.ready p' := rfl
@[simp] theorem setReset_now (s : State) (b : Bool) : (s.setReset b).now = s.now := rfl

/-! ### setPwrreq -/

@[simp] theorem setPwrreq_rails (s : State) (b : Bool) : (s.setPwrreq b).rails = s.rails := rfl
@[simp] theorem setPwrreq_store (s : State) (b : Bool) : (s.setPwrreq b).store = s.store := rfl
@[simp] theorem setPwrreq_engine (s : State) (b : Bool) : (s.setPwrreq b).engine = s.engine := rfl
@[simp] theorem setPwrreq_requests (s : State) (b : Bool) : (s.setPwrreq b).requests = s.requests := rfl
@[simp] theorem setPwrreq_log (s : State) (b : Bool) : (s.setPwrreq b).log = s.log := rfl
@[simp] theorem setPwrreq_notify (s : State) (b : Bool) : (s.setPwrreq b).notify = s.notify := rfl
@[simp] theorem setPwrreq_bus (s : State) (b : Bool) : (s.setPwrreq b).bus = s.bus := rfl
@[simp] theorem setPwrreq_freeIndex (s : State) (b : Bool) : (s.setPwrreq b).freeIndex = s.freeIndex := rfl
@[simp] theorem setPwrreq_pending (s : State) (b : Bool) : (s.setPwrreq b).pending = s.pending := rfl
@[simp] theorem setPwrreq_rail (s : State) (b : Bool) (r' : Rail) : (s.setPwrreq b).rail r' = s.rail r' := rfl
@[simp] theorem setPwrreq_plan (s : State) (b : Bool) (p' : PlanNo) : (s.setPwrreq b).plan p' = s.plan p' := rfl
@[simp] theorem setPwrreq_ready (s : State) (b : Bool) (p' : PlanNo) : (s.setPwrreq b).ready p' = s.ready p' := rfl
@[simp] theorem setPwrreq_now (s : State) (b : Bool) : (s.setPwrreq b).now = s.now := rfl

/-! ### setCmd -/

@[simp] theorem setCmd_rails (s : State) (b : Byte) : (setCmd b s).rails = s.rails := rfl
@[simp] theorem setCmd_store (s : State) (b : Byte) : (setCmd b s).store = s.store := rfl
@[simp] theorem setCmd_engine (s : State) (b : Byte) : (setCmd b s).engine = s.engine := rfl
@[simp] theorem setCmd_requests (s : State) (b : Byte) : (setCmd b s).requests = s.requests := rfl
@[simp] theorem setCmd_log (s : State) (b : Byte) : (setCmd b s).log = s.log := rfl
@[simp] theorem setCmd_notify (s : State) (b : Byte) : (setCmd b s).notify = s.notify := rfl
@[simp] theorem setCmd_pins (s : State) (b : Byte) : (setCmd b s).pins = s.pins := rfl
@[simp] theorem setCmd_freeIndex (s : State) (b : Byte) : (setCmd b s).freeIndex = s.freeIndex := rfl
@[simp] theorem setCmd_pending (s : State) (b : Byte) : (setCmd b s).pending = s.pending := rfl
@[simp] theorem setCmd_rail (s : State) (b : Byte) (r' : Rail) : (setCmd b s).rail r' = s.rail r' := rfl
@[simp] theorem setCmd_plan (s : State) (b : Byte) (p' : PlanNo) : (setCmd b s).plan p' = s.plan p' := rfl
@[simp] theorem setCmd_ready (s : State) (b : Byte) (p' : PlanNo) : (setCmd b s).ready p' = s.ready p' := rfl
@[simp] theorem setCmd_now (s : State) (b : Byte) : (setCmd b s).now = s.now := rfl

/-! ### nextFree -/

@[simp] theorem nextFree_rails (s : State) : (nextFree s).rails = s.rails := rfl
@[simp] theorem nextFree_store (s : State) : (nextFree s).store = s.store := rfl
@[simp] theorem nextFree_engine (s : State) : (nextFree s).engine = s.engine := rfl
@[simp] theorem nextFree_requests (s : State) : (nextFree s).requests = s.requests := rfl
@[simp] theorem nextFree_log (s : State) : (nextFree s).log = s.log := rfl
@[simp] theorem nextFree_notify (s : State) : (nextFree s).notify = s.notify := rfl
@[simp] theorem nextFree_bus (s : State) : (nextFree s).bus = s.bus := rfl
@[simp] theorem nextFree_pins (s : State) : (nextFree s).pins = s.pins := rfl
@[simp] theorem nextFree_pending (s : State) : (nextFree s).pending = s.pending := rfl
@[simp] theorem nextFree_rail (s : State) (r' : Rail) : (nextFree s).rail r' = s.rail r' := rfl
@[simp] theorem nextFree_plan (s : State) (p' : PlanNo) : (nextFree s).plan p' = s.plan p' := rfl
@[simp] theorem nextFree_ready (s : State) (p' : PlanNo) : (nextFree s).ready p' = s.ready p' := rfl
@[simp] theorem nextFree_now (s : State) : (nextFree s).now = s.now := rfl

/-! ### withPending -/

@[simp] theorem withPending_rails (s : State) (l : List Instr) : (s.withPending l).rails = s.rails := rfl
@[simp] theorem withPending_store (s : State) (l : List Instr) : (s.withPending l).store = s.store := rfl
@[simp] theorem withPending_engine (s : State) (l : List Instr) : (s.withPending l).engine = s.engine := rfl
@[simp] theorem withPending_requests (s : State) (l : List Instr) : (s.withPending l).requests = s.requests := rfl
@[simp] theorem withPending_log (s : State) (l : List Instr) : (s.withPending l).log = s.log := rfl
@[simp] theorem withPending_notify (s : State) (l : List Instr) : (s.withPending l).notify = s.notify := rfl
@[simp] theorem withPending_bus (s : State) (l : List Instr) : (s.withPending l).bus = s.bus := rfl
@[simp] theorem withPending_pins (s : State) (l : List Instr) : (s.withPending l).pins = s.pins := rfl
@[simp] theorem withPending_freeIndex (s : State) (l : List Instr) : (s.withPending l).freeIndex = s.freeIndex := rfl
@[simp] theorem withPending_rail (s : State) (l : List Instr) (r' : Rail) : (s.withPending l).rail r' = s.rail r' := rfl
@[simp] theorem withPending_plan (s : State) (l : List Instr) (p' : PlanNo) : (s.withPending l).plan p' = s.plan p' := rfl
@[simp] theorem withPending_ready (s : State) (l : List Instr) (p' : PlanNo) : (s.withPending l).ready p' = s.ready p' := rfl
@[simp] theorem withPending_now (s : State) (l : List Instr) : (s.withPending l).now = s.now := rfl

/-! ### window -/

@[simp] theorem window_rails (s : State) (a b c : Byte) : (s.window a b c).rails = s.rails := rfl
@[simp] theorem window_store (s : State) (a b c : Byte) : (s.window a b c).store = s.store := rfl
@[simp] theorem window_engine (s : State) (a b c : Byte) : (s.window a b c).engine = s.engine := rfl
@[simp] theorem window_requests (s : State) (a b c : Byte) : (s.window a b c).requests = s.requests := rfl
@[simp] theorem window_log (s : State) (a b c : Byte) : (s.window a b c).log = s.log := rfl
@[simp] theorem window_notify (s : State) (a b c : Byte) : (s.window a b c).notify = s.notify := rfl
@[simp] theorem window_pins (s : State) (a b c : Byte) : (s.window a b c).pins = s.pins := rfl
@[simp] theorem window_freeIndex (s : State) (a b c : Byte) : (s.window a b c).freeIndex = s.freeIndex := rfl
@[simp] theorem window_pending (s : State) (a b c : Byte) : (s.window a b c).pending = s.pending := rfl
@[simp] theorem window_rail (s : State) (a b c : Byte) (r' : Rail) : (s.window a b c).rail r' = s.rail r' := rfl
@[simp] theorem window_plan (s : State) (a b c : Byte) (p' : PlanNo) : (s.window a b c).plan p' = s.plan p' := rfl
@[simp] theorem window_ready (s : State) (a b c : Byte) (p' : PlanNo) : (s.window a b c).ready p' = s.ready p' := rfl
@[simp] theorem window_now (s : State) (a b c : Byte) : (s.window a b c).now = s.now := rfl

/-! ### mapRun -/

@[simp] theorem mapRun_rails (s : State) (f : Run → Run) : (mapRun f s).rails = s.rails := rfl
@[simp] theorem mapRun_store (s : State) (f : Run → Run) : (mapRun f s).store = s.store := rfl
@[simp] theorem mapRun_requests (s : State) (f : Run → Run) : (mapRun f s).requests = s.requests := rfl
@[simp] theorem mapRun_log (s : State) (f : Run → Run) : (mapRun f s).log = s.log := rfl
@[simp] theorem mapRun_notify (s : State) (f : Run → Run) : (mapRun f s).notify = s.notify := rfl
@[simp] theorem mapRun_bus (s : State) (f : Run → Run) : (mapRun f s).bus = s.bus := rfl
@[simp] theorem mapRun_pins (s : State) (f : Run → Run) : (mapRun f s).pins = s.pins := rfl
@[simp] theorem mapRun_freeIndex (s : State) (f : Run → Run) : (mapRun f s).freeIndex = s.freeIndex := rfl
@[simp] theorem mapRun_pending (s : State) (f : Run → Run) : (mapRun f s).pending = s.pending := rfl
@[simp] theorem mapRun_rail (s : State) (f : Run → Run) (r' : Rail) : (mapRun f s).rail r' = s.rail r' := rfl
@[simp] theorem mapRun_plan (s : State) (f : Run → Run) (p' : PlanNo) : (mapRun f s).plan p' = s.plan p' := rfl
@[simp] theorem mapRun_ready (s : State) (f : Run → Run) (p' : PlanNo) : (mapRun f s).ready p' = s.ready p' := rfl
@[simp] theorem mapRun_now (s : State) (f : Run → Run) : (mapRun f s).now = s.now := rfl

/-! ### The fields that each update sets -/

@[simp] theorem setRail_rail (s : State) (r r' : Rail) (c : RailChan) :
    (s.setRail r c).rail r' = if r = r' then c else s.rail r' := by
  simp only [State.setRail, State.rail, Vector.getElem_set]
  by_cases h : r = r'
  · simp [h]
  · simp only [h, if_false]
    exact if_neg (fun h' => h (Fin.ext h'))

@[simp] theorem setPlan_plan (s : State) (p p' : PlanNo) (x : Plan) :
    (s.setPlan p x).plan p' = if p = p' then x else s.plan p' := by
  simp only [State.setPlan, State.plan, Vector.getElem_set]
  by_cases h : p = p'
  · simp [h]
  · simp only [h, if_false]
    exact if_neg (fun h' => h (Fin.ext h'))

@[simp] theorem setPlan_defining (s : State) (p : PlanNo) (x : Plan) : (s.setPlan p x).store.defining = s.store.defining := rfl
@[simp] theorem setDefining_defining (s : State) (m : Option PlanNo) : (s.setDefining m).store.defining = m := rfl
@[simp] theorem setDefining_plan (s : State) (m : Option PlanNo) (p : PlanNo) : (s.setDefining m).plan p = s.plan p := rfl
@[simp] theorem setDefining_ready (s : State) (m : Option PlanNo) (p : PlanNo) : (s.setDefining m).ready p = s.ready p := rfl
@[simp] theorem setWriteCount_bus (s : State) (b : Byte) : (s.setWriteCount b).bus = { s.bus with writeCount := b } := rfl
@[simp] theorem setRun_engine (s : State) (x : Option Run) : (s.setRun x).engine = { s.engine with run := x } := rfl
@[simp] theorem setEngineTimers_engine (s : State) (a b c : Option Timer) :
    (s.setEngineTimers a b c).engine = { s.engine with quietT := a, stepT := b, holdT := c } := rfl
@[simp] theorem setReport_engine (s : State) (x : Report) : (s.setReport x).engine = { s.engine with report := some x } := rfl
@[simp] theorem mapRun_engine (s : State) (f : Run → Run) :
    (mapRun f s).engine = { s.engine with run := s.engine.run.map f } := rfl
@[simp] theorem setQueue_requests (s : State) (q : List QueueEntry) :
    (s.setQueue q).requests = { s.requests with queue := q } := rfl
@[simp] theorem setSlot_requests (s : State) (q : Option PlanRequest) :
    (s.setSlot q).requests = { s.requests with slot := q } := rfl
@[simp] theorem setNotify_notify (s : State) (n : Notify) : (s.setNotify n).notify = n := rfl
@[simp] theorem setFlag_notify (s : State) (f : EventFlag) :
    (setFlag f s).notify = { s.notify with flags := s.notify.flags ||| BitVec.twoPow 8 f.position }.judge := rfl
@[simp] theorem addChanged_notify (s : State) (r : Rail) :
    (addChanged r s).notify = { s.notify with changed := RailSet.add s.notify.changed r }.judge := rfl
@[simp] theorem setShed_notify (s : State) : (setShed s).notify = { s.notify with shed := true } := rfl
@[simp] theorem setRecords_log (s : State) (l : List LogRecord) : (s.setRecords l).log = { s.log with records := l } := rfl
@[simp] theorem setRecords_now (s : State) (l : List LogRecord) : (s.setRecords l).now = s.now := rfl
@[simp] theorem recomputeFlt_log (s : State) : (recomputeFlt s).log = { s.log with flt := s.fltLevel } := rfl
@[simp] theorem recomputeFlt_now (s : State) : (recomputeFlt s).now = s.now := rfl
@[simp] theorem setStaging_bus (s : State) (v : Vector Byte 20) : (s.setStaging v).bus = { s.bus with staging := v } := rfl
@[simp] theorem setKill_pins (s : State) (b : Bool) : (s.setKill b).pins = { s.pins with kill := b } := rfl
@[simp] theorem setReset_pins (s : State) (b : Bool) : (s.setReset b).pins = { s.pins with inReset := b } := rfl
@[simp] theorem setPwrreq_pins (s : State) (b : Bool) : (s.setPwrreq b).pins = { s.pins with pwrreq := b } := rfl
@[simp] theorem setXf_kill (s : State) (x : XfInput) (b : Bool) : (s.setXf x b).pins.kill = s.pins.kill := by cases x <;> rfl
@[simp] theorem setXf_inReset (s : State) (x : XfInput) (b : Bool) : (s.setXf x b).pins.inReset = s.pins.inReset := by
  cases x <;> rfl
@[simp] theorem setCmd_bus (s : State) (b : Byte) : (setCmd b s).bus = { s.bus with cmd := b } := rfl
@[simp] theorem nextFree_freeIndex (s : State) : (nextFree s).freeIndex = s.freeIndex + 1 := rfl
@[simp] theorem withPending_pending (s : State) (l : List Instr) : (s.withPending l).pending = l := rfl
@[simp] theorem window_bus (s : State) (a b c : Byte) : (s.window a b c).bus = { s.bus with cmd := a, res := b, rdet := c } := rfl

/-! ### The judgement of INT# changes only INT# -/

@[simp] theorem Notify.judge_flags (n : Notify) : n.judge.flags = n.flags := rfl
@[simp] theorem Notify.judge_enables (n : Notify) : n.judge.enables = n.enables := rfl
@[simp] theorem Notify.judge_changed (n : Notify) : n.judge.changed = n.changed := rfl
@[simp] theorem Notify.judge_shed (n : Notify) : n.judge.shed = n.shed := rfl
@[simp] theorem Notify.judge_evt (n : Notify) : n.judge.evt = n.evt := rfl
@[simp] theorem Notify.judge_judge (n : Notify) : n.judge.judge = n.judge := rfl

/-! ### What a front end remembers of its reports touches nothing else of the rail -/

@[simp] theorem RailChan.noteZone_cfg (c : RailChan) (z : Zone) : (c.noteZone z).cfg = c.cfg := rfl
@[simp] theorem RailChan.noteZone_state (c : RailChan) (z : Zone) : (c.noteZone z).state = c.state := rfl
@[simp] theorem RailChan.noteZone_latched (c : RailChan) (z : Zone) : (c.noteZone z).latched = c.latched := rfl
@[simp] theorem RailChan.noteZone_firstKind (c : RailChan) (z : Zone) : (c.noteZone z).firstKind = c.firstKind := rfl
@[simp] theorem RailChan.noteZone_retries (c : RailChan) (z : Zone) : (c.noteZone z).retries = c.retries := rfl
@[simp] theorem RailChan.noteZone_discharging (c : RailChan) (z : Zone) : (c.noteZone z).discharging = c.discharging := rfl
@[simp] theorem RailChan.noteZone_rampT (c : RailChan) (z : Zone) : (c.noteZone z).rampT = c.rampT := rfl
@[simp] theorem RailChan.noteZone_settleT (c : RailChan) (z : Zone) : (c.noteZone z).settleT = c.settleT := rfl
@[simp] theorem RailChan.noteZone_dischargeT (c : RailChan) (z : Zone) : (c.noteZone z).dischargeT = c.dischargeT := rfl
@[simp] theorem RailChan.noteZone_backfeedT (c : RailChan) (z : Zone) : (c.noteZone z).backfeedT = c.backfeedT := rfl
@[simp] theorem RailChan.noteZone_uvT (c : RailChan) (z : Zone) : (c.noteZone z).uvT = c.uvT := rfl
@[simp] theorem RailChan.noteZone_ocT (c : RailChan) (z : Zone) : (c.noteZone z).ocT = c.ocT := rfl
@[simp] theorem RailChan.noteZone_retryT (c : RailChan) (z : Zone) : (c.noteZone z).retryT = c.retryT := rfl
@[simp] theorem RailChan.noteZone_armOv (c : RailChan) (z : Zone) : (c.noteZone z).armOv = c.armOv := rfl
@[simp] theorem RailChan.noteZone_armUv (c : RailChan) (z : Zone) : (c.noteZone z).armUv = c.armUv := rfl
@[simp] theorem RailChan.noteZone_armOc (c : RailChan) (z : Zone) : (c.noteZone z).armOc = c.armOc := rfl
@[simp] theorem RailChan.noteZone_armExt (c : RailChan) (z : Zone) : (c.noteZone z).armExt = c.armExt := rfl
@[simp] theorem RailChan.noteZone_armBackfeed (c : RailChan) (z : Zone) : (c.noteZone z).armBackfeed = c.armBackfeed := rfl
@[simp] theorem RailChan.noteZone_en (c : RailChan) (z : Zone) : (c.noteZone z).en = c.en := rfl
@[simp] theorem RailChan.noteZone_dis (c : RailChan) (z : Zone) : (c.noteZone z).dis = c.dis := rfl
@[simp] theorem RailChan.noteZone_zone (c : RailChan) (z : Zone) : (c.noteZone z).zone = c.zone := rfl
@[simp] theorem RailChan.noteZone_overCurrent (c : RailChan) (z : Zone) : (c.noteZone z).overCurrent = c.overCurrent := rfl
@[simp] theorem RailChan.noteZone_senseMv (c : RailChan) (z : Zone) : (c.noteZone z).senseMv = c.senseMv := rfl
@[simp] theorem RailChan.noteZone_senseMa (c : RailChan) (z : Zone) : (c.noteZone z).senseMa = c.senseMa := rfl
@[simp] theorem RailChan.noteFlag_cfg (c : RailChan) (b : Bool) : (c.noteFlag b).cfg = c.cfg := rfl
@[simp] theorem RailChan.noteFlag_state (c : RailChan) (b : Bool) : (c.noteFlag b).state = c.state := rfl
@[simp] theorem RailChan.noteFlag_latched (c : RailChan) (b : Bool) : (c.noteFlag b).latched = c.latched := rfl
@[simp] theorem RailChan.noteFlag_firstKind (c : RailChan) (b : Bool) : (c.noteFlag b).firstKind = c.firstKind := rfl
@[simp] theorem RailChan.noteFlag_retries (c : RailChan) (b : Bool) : (c.noteFlag b).retries = c.retries := rfl
@[simp] theorem RailChan.noteFlag_discharging (c : RailChan) (b : Bool) : (c.noteFlag b).discharging = c.discharging := rfl
@[simp] theorem RailChan.noteFlag_rampT (c : RailChan) (b : Bool) : (c.noteFlag b).rampT = c.rampT := rfl
@[simp] theorem RailChan.noteFlag_settleT (c : RailChan) (b : Bool) : (c.noteFlag b).settleT = c.settleT := rfl
@[simp] theorem RailChan.noteFlag_dischargeT (c : RailChan) (b : Bool) : (c.noteFlag b).dischargeT = c.dischargeT := rfl
@[simp] theorem RailChan.noteFlag_backfeedT (c : RailChan) (b : Bool) : (c.noteFlag b).backfeedT = c.backfeedT := rfl
@[simp] theorem RailChan.noteFlag_uvT (c : RailChan) (b : Bool) : (c.noteFlag b).uvT = c.uvT := rfl
@[simp] theorem RailChan.noteFlag_ocT (c : RailChan) (b : Bool) : (c.noteFlag b).ocT = c.ocT := rfl
@[simp] theorem RailChan.noteFlag_retryT (c : RailChan) (b : Bool) : (c.noteFlag b).retryT = c.retryT := rfl
@[simp] theorem RailChan.noteFlag_armOv (c : RailChan) (b : Bool) : (c.noteFlag b).armOv = c.armOv := rfl
@[simp] theorem RailChan.noteFlag_armUv (c : RailChan) (b : Bool) : (c.noteFlag b).armUv = c.armUv := rfl
@[simp] theorem RailChan.noteFlag_armOc (c : RailChan) (b : Bool) : (c.noteFlag b).armOc = c.armOc := rfl
@[simp] theorem RailChan.noteFlag_armExt (c : RailChan) (b : Bool) : (c.noteFlag b).armExt = c.armExt := rfl
@[simp] theorem RailChan.noteFlag_armBackfeed (c : RailChan) (b : Bool) : (c.noteFlag b).armBackfeed = c.armBackfeed := rfl
@[simp] theorem RailChan.noteFlag_en (c : RailChan) (b : Bool) : (c.noteFlag b).en = c.en := rfl
@[simp] theorem RailChan.noteFlag_dis (c : RailChan) (b : Bool) : (c.noteFlag b).dis = c.dis := rfl
@[simp] theorem RailChan.noteFlag_zone (c : RailChan) (b : Bool) : (c.noteFlag b).zone = c.zone := rfl
@[simp] theorem RailChan.noteFlag_overCurrent (c : RailChan) (b : Bool) : (c.noteFlag b).overCurrent = c.overCurrent := rfl
@[simp] theorem RailChan.noteFlag_senseMv (c : RailChan) (b : Bool) : (c.noteFlag b).senseMv = c.senseMv := rfl
@[simp] theorem RailChan.noteFlag_senseMa (c : RailChan) (b : Bool) : (c.noteFlag b).senseMa = c.senseMa := rfl

end Sys2Proof.Machine
end

