-- ==== Sys2Proof/Laws/Moves.lean ====
section
/-! SUPPORT. Everything that the engine and the hand-on of an event can do, said once: they make a sequence of single moves. A property that
each move keeps is kept by the whole of a chain of steps, the end and the choice of runs, and the hand-on (`Moves.keeps`). -/

namespace Sys2Proof.Machine

/-- One move of the engine, the run request unit or the hand-on. -/
inductive Move : State → State → Prop where
  | run (s : State) (x : Option Run) : Move s (s.setRun x)
  | timers (s : State) (a b c : Option Timer) : Move s (s.setEngineTimers a b c)
  | report (s : State) (x : Report) : Move s (s.setReport x)
  | queue (s : State) (q : List QueueEntry) : Move s (s.setQueue q)
  | slot (s : State) (q : Option PlanRequest) : Move s (s.setSlot q)
  | flag (s : State) (f : EventFlag) : Move s (setFlag f s)
  | changed (s : State) (r : Rail) : Move s (addChanged r s)
  | shed (s : State) : Move s (setShed s)
  | record (s : State) (kind : EngineKind) (role : Role) (c : PlanContext) : Move s (logEngine kind role c s)
  | command (s : State) (kind : StepKind) (st : StepRec) : Move s (issue kind st s).2.s

/-- A sequence of moves. -/
abbrev Moves : State → State → Prop := Relation.ReflTransGen Move

theorem Move.moves {a b : State} (h : Move a b) : Moves a b := Relation.ReflTransGen.single h

/-- A property that each move keeps is kept by a sequence of moves. -/
theorem Moves.keeps {a b : State} (h : Moves a b) (P : State → Prop) (hP : ∀ x y, Move x y → P x → P y) (ha : P a) : P b := by
  induction h with
  | refl => exact ha
  | tail _ hm ih => exact hP _ _ hm ih

theorem mapRun_moves (f : Run → Run) (s : State) : Moves s (mapRun f s) := (Move.run s _).moves
theorem beginStep_moves (i : Nat) (s : State) : Moves s (beginStep i s) := mapRun_moves _ s
theorem startStepTimer_moves (ms : Nat) (s : State) : Moves s (startStepTimer ms s) := (Move.timers s _ _ _).moves
theorem setSelection_moves (x : RailSet) (s : State) : Moves s (setSelection x s) := mapRun_moves _ s
theorem goIdle_moves (s : State) : Moves s (goIdle s) := (Move.run s _).moves
theorem endWait_moves (s : State) : Moves s (endWait s) := (Move.timers s _ _ _).moves.trans (mapRun_moves _ _)
theorem enterHeld_moves (n : Nat) (s : State) : Moves s (enterHeld n s) :=
  ((Move.timers s _ _ _).moves.trans (mapRun_moves _ _)).trans (Move.flag _ _).moves

theorem addChanged_list_moves (l : List Rail) (s : State) : Moves s (l.foldl (fun t r => addChanged r t) s) := by
  induction l generalizing s with
  | nil => exact .refl
  | cons r l ih => exact (Move.changed s r).moves.trans (ih _)

/-- What a step's command hands on is made of moves. -/
theorem absorb_moves (d : Delta) (w : Work) : Moves d.s (absorb d w).s := by
  unfold absorb
  by_cases h : d.shed = true
  · simpa [h] using (addChanged_list_moves _ _).trans (Move.shed _).moves
  · simpa [h] using addChanged_list_moves _ _

theorem issueStep_moves (kind : StepKind) (st : StepRec) (w : Work) : Moves w.s (issueStep kind st w).1.s :=
  (Move.command w.s kind st).moves.trans (absorb_moves _ w)

theorem startAwait_moves (kind : StepKind) (st : StepRec) (w : Work) : Moves w.s (startAwait kind st w).1.s := by
  have h0 : Moves w.s (startStepTimer (10 * st.time.toNat) (setSelection (stepSelection w.s st) w.s)) :=
    (setSelection_moves _ _).trans (startStepTimer_moves _ _)
  simp only [startAwait, Work.on]
  split
  · exact .refl
  · split
    · exact h0.trans (endWait_moves _)
    · exact h0.trans (endWait_moves _)
    · exact h0

theorem startStep_moves (st : StepRec) (w : Work) : Moves w.s (startStep st w).1.s := by
  unfold startStep
  split
  · exact .refl
  · exact issueStep_moves _ _ _
  · exact issueStep_moves _ _ _
  · exact issueStep_moves _ _ _
  · exact startAwait_moves _ _ _
  · exact startAwait_moves _ _ _
  · exact startStepTimer_moves _ _
  · exact enterHeld_moves _ _

theorem afterStep_moves (st : StepRec) (x : Work × StepEnd) (next : Work → Work × ChainEnd)
    (hn : ∀ w, Moves w.s (next w).1.s) : Moves x.1.s (afterStep st x next).1.s := by
  obtain ⟨w, e⟩ := x
  cases e with
  | rest => exact .refl
  | failed reason refusal => exact .refl
  | completed =>
    simp only [afterStep]
    split
    · exact enterHeld_moves _ _
    · exact hn w

/-- A chain of steps is made of moves. -/
theorem runSteps_moves (k i : Nat) (w : Work) : Moves w.s (runSteps k i w).1.s := by
  induction k generalizing i w with
  | zero => exact .refl
  | succ k ih =>
    have hb : Moves w.s (w.on (beginStep i)).s := beginStep_moves i w.s
    simp only [runSteps]
    split
    · exact hb
    · exact hb.trans ((startStep_moves _ _).trans (afterStep_moves _ _ _ (fun w' => ih (i + 1) w')))

theorem startRun_moves (x : RunSpec) (w : Work) : Moves w.s (startRun x w).1.s := by
  have h (p : Phase) (a : Option Timer) : Moves w.s ((w.s.setRun (some (x.context p))).setEngineTimers a none none) :=
    (Move.run w.s _).moves.trans (Move.timers _ _ _ _).moves
  simp only [startRun, Work.on]
  split
  · exact h _ _
  · exact (h .waiting none).trans (runSteps_moves _ 0 { s := _, reqs := w.reqs })

theorem outcomeFlag_moves (o : RunOutcome) (s : State) : Moves s (outcomeFlag o s) := by
  cases o <;> first | exact .refl | exact (Move.flag _ _).moves

theorem outcomeRecord_moves (run : Run) (o : RunOutcome) (s : State) : Moves s (outcomeRecord run o s) := by
  unfold outcomeRecord
  split
  · split <;> exact (Move.record _ _ _ _).moves
  · exact (Move.record _ _ _ _).moves
  · exact (Move.record _ _ _ _).moves
  · exact .refl

/-- The end of a run is made of moves. -/
theorem endRun_moves (run : Run) (o : RunOutcome) (reason : Reason) (refusal : Option Result) (s : State) :
    Moves s (endRun run o reason refusal s) :=
  ((((Move.timers s _ _ _).moves.trans (mapRun_moves _ _)).trans (Move.report _ _).moves).trans
    (outcomeFlag_moves _ _)).trans (outcomeRecord_moves _ _ _)

theorem endChain_moves (run : Run) (e : ChainEnd) (s : State) : Moves s (endChain run e s) := by
  unfold endChain
  split <;> exact endRun_moves _ _ _ _ _

theorem failurePolicy_moves (run : Run) (w : Work) : Moves w.s (failurePolicy run w).1.s := by
  unfold failurePolicy
  split
  · split
    · exact startRun_moves _ _
    · exact (Move.record _ _ _ _).moves
  · exact .refl

theorem takeNext_moves (s : State) (x : RunSpec) (s1 : State) (h : takeNext s = some (x, s1)) : Moves s s1 := by
  unfold takeNext at h
  split at h
  · cases h; exact (Move.slot _ _).moves
  · split at h
    · cases h; exact (Move.queue _ _).moves
    · cases h

theorem settleRun_moves (w : Work) (e : ChainEnd) : Moves w.s (settleRun w e).1.s := by
  unfold settleRun
  split
  · exact .refl
  · exact .refl
  · exact endChain_moves _ .done w.s
  · rename_i reason refusal run hrun
    have h1 : Moves w.s (failurePolicy run (w.on (endChain run (.failed reason refusal)))).1.s :=
      Relation.ReflTransGen.trans (b := (w.on (endChain run (.failed reason refusal))).s) (endChain_moves run (.failed reason refusal) w.s)
        (failurePolicy_moves run (w.on (endChain run (.failed reason refusal))))
    generalize failurePolicy run (w.on (endChain run (.failed reason refusal))) = x at h1 ⊢
    obtain ⟨w1, e1⟩ := x
    split
    · rename_i heq; cases heq; exact h1
    · rename_i heq; cases heq; exact h1
    · rename_i heq
      cases heq
      split
      · exact h1
      · exact h1.trans (endChain_moves _ _ _)

theorem chooseNext_moves (n : Nat) (w : Work) : Moves w.s (chooseNext n w).s := by
  induction n generalizing w with
  | zero => exact goIdle_moves _
  | succ n ih =>
    simp only [chooseNext]
    split
    · exact goIdle_moves _
    · rename_i x s1 hx
      have h1 : Moves w.s (settleRun (startRun x { w with s := s1 }).1 (startRun x { w with s := s1 }).2).1.s :=
        (takeNext_moves _ _ _ hx).trans ((startRun_moves x { w with s := s1 }).trans (settleRun_moves _ _))
      split
      · rename_i heq; rw [heq] at h1; exact h1
      · rename_i heq; rw [heq] at h1; exact h1.trans (ih _)

/-- The engine after a chain of steps makes moves. -/
theorem carryOn_moves (w : Work) (e : ChainEnd) : Moves w.s (carryOn w e).s := by
  have h := settleRun_moves w e
  unfold carryOn
  split
  · rename_i heq; rw [heq] at h; exact h
  · rename_i heq; rw [heq] at h; exact h.trans (chooseNext_moves _ _)

theorem nextSteps_moves (run : Run) (w : Work) : Moves w.s (nextSteps run w).s :=
  (runSteps_moves _ _ _).trans (carryOn_moves _ _)

theorem completeStep_moves (run : Run) (w : Work) : Moves w.s (completeStep run w).s := by
  simp only [completeStep]
  split
  · exact enterHeld_moves _ _
  · exact nextSteps_moves _ _

theorem engineSees_moves (r : Rail) (w : Work) : Moves w.s (engineSees r w).s := by
  unfold engineSees
  split
  · exact .refl
  · split
    · exact .refl
    · exact (Move.timers _ _ _ _).moves
    · split
      · split
        · split
          · exact .refl
          · exact (endWait_moves _).trans (completeStep_moves _ (w.on endWait))
          · exact (endWait_moves _).trans (carryOn_moves (w.on endWait) _)
        · exact .refl
      · exact .refl

/-- The hand-on of the changes of an event is made of moves. -/
theorem handOn_moves (d : Delta) : Moves d.s (handOn d).s := by
  have h : ∀ (l : List Rail) (w : Work),
      Moves w.s (l.foldl (fun w r => engineSees r (w.on (addChanged r))) w).s := by
    intro l
    induction l with
    | nil => intro w; exact .refl
    | cons r l ih => intro w; exact ((Move.changed _ r).moves.trans (engineSees_moves r (w.on (addChanged r)))).trans (ih _)
  exact h _ { s := d.s, reqs := d.reqs }

theorem judgeRequest_moves (q : PlanRequest) (w : Work) : Moves w.s (judgeRequest q w).s := by
  have hu (w : Work) : Moves w.s (startUrgent q w).s :=
    (startRun_moves (urgentSpec q) w).trans (carryOn_moves (startRun (urgentSpec q) w).1 _)
  unfold judgeRequest
  split
  · exact .refl
  · split
    · exact (Move.record _ _ _ _).moves
    · split
      · exact hu w
      · split
        · split
          · exact (Move.slot _ _).moves
          · split
            · exact .refl
            · exact (Move.record _ _ _ _).moves
        · exact (endRun_moves _ .preempted .none none w.s).trans (hu (w.on (endRun _ .preempted .none none)))

theorem judgeRequests_moves (n : Nat) (w : Work) : Moves w.s (judgeRequests n w) := by
  induction n generalizing w with
  | zero => exact .refl
  | succ n ih =>
    simp only [judgeRequests]
    split
    · exact .refl
    · rename_i q l _
      exact (judgeRequest_moves q { w with reqs := l }).trans (ih (judgeRequest q { w with reqs := l }))

/-- The judgement of the waiting fault-plan requests is made of moves. -/
theorem finishWork_moves (w : Work) : Moves w.s (finishWork w) := judgeRequests_moves _ w

/-- The whole hand-on of an event is made of moves. -/
theorem finish_moves (d : Delta) : Moves d.s (finish d) := by
  have h := (handOn_moves d).trans (finishWork_moves (handOn d))
  simp only [finish]
  split
  · exact h.trans (Move.shed _).moves
  · exact h

theorem joinQueue_moves (e : QueueEntry) (s : State) : Moves s (joinQueue e s) := by
  simp only [joinQueue]
  split
  · exact ((Move.queue s _).moves.trans (chooseNext_moves _ { s := s.setQueue _, reqs := [] })).trans (finishWork_moves _)
  · exact (Move.queue s _).moves

end Sys2Proof.Machine
end

