-- ==== Sys2Proof/Laws/Rails.lean ====
section
/-! SUPPORT. What a rail event does to each rail, said once: the rail itself undergoes its transition, every other rail is left alone or, when it
was active, taken by the cascade (`onRail_rail`); and what the engine's moves do to each rail (`moves_rails`). -/

namespace Sys2Proof.Machine

/-! ### Sets of rails -/

theorem rails_add_zero (r : Rail) : RailSet.rails (RailSet.add 0 r) = [r] := by
  revert r; decide

theorem mem_rails (x : RailSet) (r : Rail) : r ∈ RailSet.rails x ↔ RailSet.has x r = true := by
  simp [RailSet.rails, allRails]

theorem rails_nodup (x : RailSet) : (RailSet.rails x).Nodup := (List.nodup_finRange 16).filter _

@[simp] theorem rails_zero : RailSet.rails 0#16 = [] := by decide

theorem has_add (x : RailSet) (r r' : Rail) : RailSet.has (RailSet.add x r) r' = (RailSet.has x r' || r == r') := by
  simp only [RailSet.has, RailSet.add, BitVec.getLsbD_or, BitVec.getLsbD_twoPow]
  by_cases h : r = r'
  · subst h; simp
  · have h' : r.val ≠ r'.val := fun e => h (Fin.ext e)
    simp [h, h']

@[simp] theorem has_zero (r : Rail) : RailSet.has 0#16 r = false := by simp [RailSet.has]

theorem has_or (x y : RailSet) (r : Rail) : RailSet.has (x ||| y) r = (RailSet.has x r || RailSet.has y r) := by
  simp [RailSet.has]

theorem has_ofList (l : List Rail) (r : Rail) : RailSet.has (RailSet.ofList l) r = l.contains r := by
  have h : ∀ (l : List Rail) (x : RailSet), RailSet.has (l.foldl RailSet.add x) r = (RailSet.has x r || l.contains r) := by
    intro l
    induction l with
    | nil => simp
    | cons a l ih =>
      intro x
      simp only [List.foldl_cons, ih, has_add, List.contains_cons, Bool.or_assoc]
      congr 2
      simp [Bool.beq_comm]
  simp [RailSet.ofList, h]

/-- The rails a cascade takes: the active descendants (R62, R64). -/
theorem has_taken (s : State) (r x : Rail) :
    RailSet.has (s.taken r) x = (RailSet.has (s.descendants r) x && (s.rail x).state.active) := by
  rw [State.taken, has_ofList, Bool.eq_iff_iff]
  simp [allRails]

/-! ### Records leave the rails alone -/

@[simp] theorem logFault_rails (x : Subject) (c : Option PlanContext) (s : State) : (logFault x c s).rails = s.rails := by
  unfold logFault; split <;> rfl
@[simp] theorem logFault_store (x : Subject) (c : Option PlanContext) (s : State) : (logFault x c s).store = s.store := by
  unfold logFault; split <;> rfl
@[simp] theorem logFault_engine (x : Subject) (c : Option PlanContext) (s : State) : (logFault x c s).engine = s.engine := by
  unfold logFault; split <;> rfl
@[simp] theorem logFault_requests (x : Subject) (c : Option PlanContext) (s : State) : (logFault x c s).requests = s.requests := by
  unfold logFault; split <;> rfl
@[simp] theorem logFault_bus (x : Subject) (c : Option PlanContext) (s : State) : (logFault x c s).bus = s.bus := by
  unfold logFault; split <;> rfl
@[simp] theorem logFault_pins (x : Subject) (c : Option PlanContext) (s : State) : (logFault x c s).pins = s.pins := by
  unfold logFault; split <;> rfl
@[simp] theorem logFault_freeIndex (x : Subject) (c : Option PlanContext) (s : State) :
    (logFault x c s).freeIndex = s.freeIndex := by
  unfold logFault; split <;> rfl
@[simp] theorem logFault_pending (x : Subject) (c : Option PlanContext) (s : State) : (logFault x c s).pending = s.pending := by
  unfold logFault; split <;> rfl
@[simp] theorem logFault_now (x : Subject) (c : Option PlanContext) (s : State) : (logFault x c s).now = s.now := by
  unfold logFault; split <;> rfl
@[simp] theorem logFault_rail (x : Subject) (c : Option PlanContext) (s : State) (r : Rail) :
    (logFault x c s).rail r = s.rail r := by
  unfold logFault; split <;> rfl
@[simp] theorem logRail_rail (r : Rail) (k : FaultKind) (st : RailState) (cause : Option Rail) (s : State) (r' : Rail) :
    (logRail r k st cause s).rail r' = s.rail r' := logFault_rail _ _ _ _
@[simp] theorem logRail_now (r : Rail) (k : FaultKind) (st : RailState) (cause : Option Rail) (s : State) :
    (logRail r k st cause s).now = s.now := logFault_now _ _ _
@[simp] theorem logEngine_rail (k : EngineKind) (role : Role) (c : PlanContext) (s : State) (r' : Rail) :
    (logEngine k role c s).rail r' = s.rail r' := logFault_rail _ _ _ _

theorem logDecls_rail (r : Rail) (l : List Decl) (s : State) (r' : Rail) : (logDecls r l s).rail r' = s.rail r' := by
  unfold logDecls
  induction l generalizing s with
  | nil => rfl
  | cons d l ih => rw [List.foldl_cons, ih]; simp

theorem logDecls_now (r : Rail) (l : List Decl) (s : State) : (logDecls r l s).now = s.now := by
  unfold logDecls
  induction l generalizing s with
  | nil => rfl
  | cons d l ih => rw [List.foldl_cons, ih]; simp

/-! ### Cascades -/

theorem cascadeOne_rail (cause : Option Rail) (x : Rail) (s : State) (r : Rail) :
    (cascadeOne cause x s).rail r = if x = r then latch .cascade (cutTo s.now .locked (s.rail x)) else s.rail r := by
  simp [cascadeOne]

theorem cascadeOne_now (cause : Option Rail) (x : Rail) (s : State) : (cascadeOne cause x s).now = s.now := by
  simp [cascadeOne]

/-- What a cascade does to each rail: a rail taken is cut to LOCKED with CASCADE, every other rail stands (R62, R63). -/
theorem cascadeAll_rail (origin : Rail) (taken : RailSet) (s : State) (r : Rail) :
    (cascadeAll origin taken s).rail r =
      if RailSet.has taken r then latch .cascade (cutTo s.now .locked (s.rail r)) else s.rail r := by
  have h : ∀ (l : List Rail) (t : State), l.Nodup →
      (l.foldl (fun t x => cascadeOne (s.causeRail origin taken x) x t) t).rail r
        = if r ∈ l then latch .cascade (cutTo t.now .locked (t.rail r)) else t.rail r := by
    intro l
    induction l with
    | nil => intro t _; simp
    | cons a l ih =>
      intro t hl
      obtain ⟨ha, hl⟩ := List.nodup_cons.mp hl
      rw [List.foldl_cons, ih _ hl, cascadeOne_rail, cascadeOne_now]
      by_cases har : a = r
      · subst har; simp [ha]
      · have : r ≠ a := fun e => har e.symm
        simp [har, this]
  have := h (RailSet.rails taken) s (rails_nodup _)
  simpa [cascadeAll, mem_rails] using this

@[simp] theorem cascadeAll_zero (origin : Rail) (s : State) : cascadeAll origin 0#16 s = s := by simp [cascadeAll]

/-! ### A rail event -/

/-- The part of a commit after the rail's own records, before the cascade. -/
theorem commit_s (r : Rail) (e : RailStep) (d : Delta) :
    (commit r e d).s = cascadeAll r (if e.ownCut then (logDecls r e.decls (d.s.setRail r e.rc)).taken r else 0)
      (logDecls r e.decls (d.s.setRail r e.rc)) := rfl

/-- Without a cut of its own, a rail event changes its rail alone. -/
theorem commit_rail_of_not_cut (r : Rail) (e : RailStep) (d : Delta) (h : e.ownCut = false) (r' : Rail) :
    (commit r e d).s.rail r' = if r = r' then e.rc else d.s.rail r' := by
  rw [commit_s]; simp [h, logDecls_rail]

/-- What a rail event does to each rail: its own rail takes its channel, and an own cut takes the active descendants (R43, R62). -/
theorem commit_rail (r : Rail) (e : RailStep) (d : Delta) (r' : Rail) :
    (commit r e d).s.rail r' =
      if e.ownCut = true ∧ RailSet.has ((logDecls r e.decls (d.s.setRail r e.rc)).descendants r) r' = true
          ∧ (if r = r' then e.rc else d.s.rail r').state.active = true
      then latch .cascade (cutTo d.s.now .locked (if r = r' then e.rc else d.s.rail r'))
      else if r = r' then e.rc else d.s.rail r' := by
  rw [commit_s, cascadeAll_rail, logDecls_rail, logDecls_now]
  cases hc : e.ownCut with
  | false => simp
  | true => simp [has_taken, logDecls_rail]

end Sys2Proof.Machine
end

