-- ==== Sys2Proof/Laws/RailActs.lean ====
section
/-! SUPPORT. What the commands that plan steps and hosts issue do to each rail, said once: every rail undergoes a sequence of acts, each an accepted
RAISE, LOWER or CLEAR of that rail or its taking by a cascade (`issue_rails`). So do all the moves of the engine and the whole hand-on of an
event (`finish_rails`). A law of rails that the four acts keep is kept by all of them (`RailActs.keeps`). -/

namespace Sys2Proof.Machine

/-- One act on a rail. -/
inductive RailAct : RailChan → RailChan → Prop where
  | raise (now : Uptime) (xf : Bool) (c : RailChan) (hs : c.state = .off) (hz : c.zone = .zero) :
      RailAct c (railRaise now xf (RailStep.of c)).rc
  | lower (now : Uptime) (c : RailChan) (hs : c.state.active = true) : RailAct c (enterLowering now (RailStep.of c)).rc
  | clear (now : Uptime) (c : RailChan) (hs : c.state = .faulted ∨ c.state = .locked) (hz : c.zone = .zero) :
      RailAct c (railClear now (RailStep.of c)).rc
  | cascade (now : Uptime) (c : RailChan) (hs : c.state.active = true) : RailAct c (latch .cascade (cutTo now .locked c))

/-- A sequence of acts on a rail. -/
abbrev RailActs : RailChan → RailChan → Prop := Relation.ReflTransGen RailAct

/-- A law of rails that each act keeps is kept by a sequence of acts. -/
theorem RailActs.keeps {a b : RailChan} (h : RailActs a b) (P : RailChan → Prop) (hP : ∀ x y, RailAct x y → P x → P y) (ha : P a) :
    P b := by
  induction h with
  | refl => exact ha
  | tail _ hm ih => exact hP _ _ hm ih

/-! ### Accepted judgements -/

/-- An accepted RAISE is of an OFF rail with zone ZERO, its parents ON, KILL# deasserted (R14). -/
theorem judgeRaise_accepted {s : State} {r : Rail} (h : (judgeRaise s r).code = .accepted) :
    (s.rail r).state = .off ∧ (s.rail r).zone = .zero ∧ s.parentNotOn r = none ∧ s.pins.kill = false := by
  unfold judgeRaise at h
  split at h
  · split at h
    · cases h
    · split at h
      · cases h
      · split at h
        · cases h
        · simp_all
  all_goals cases h

/-- An accepted LOWER is of an active rail without an active child (R15). -/
theorem judgeLower_accepted {s : State} {r : Rail} (h : (judgeLower s r).code = .accepted) :
    (s.rail r).state.active = true ∧ s.activeChild r (fun _ => true) = none := by
  unfold judgeLower at h
  split at h
  · split at h
    · cases h
    · simp_all [RailState.active]
  · split at h
    · cases h
    · simp_all [RailState.active]
  all_goals cases h

/-- An accepted CLEAR is of a FAULTED or LOCKED rail without a present condition and with zone ZERO (R16). -/
theorem judgeClear_accepted {s : State} {r : Rail} (h : (judgeClear s r).code = .accepted) :
    ((s.rail r).state = .faulted ∨ (s.rail r).state = .locked) ∧ firstCondition s r = none ∧ (s.rail r).zone = .zero := by
  unfold judgeClear at h
  split at h
  · split at h
    · cases h
    · split at h
      · cases h
      · simp_all
  · split at h
    · cases h
    · split at h
      · cases h
      · simp_all
  all_goals cases h

/-! ### One command -/

/-- A rail event that acts on its rail acts on every rail. -/
theorem onRail_acts (r : Rail) (f : RailStep → RailStep) (d : Delta)
    (h : RailAct (d.s.rail r) (f (RailStep.of (d.s.rail r))).rc) (r' : Rail) :
    RailActs (d.s.rail r') ((onRail r f d).s.rail r') := by
  have h0 : RailActs (d.s.rail r') (if r = r' then (f (RailStep.of (d.s.rail r))).rc else d.s.rail r') := by
    split
    · rename_i e; subst e; exact .single h
    · exact .refl
  rw [onRail, commit_rail]
  generalize (if r = r' then (f (RailStep.of (d.s.rail r))).rc else d.s.rail r') = c at h0 ⊢
  split
  · rename_i hc; exact h0.trans (.single (.cascade _ _ hc.2.2))
  · exact h0

/-- A rail that is not active stands through another rail's event. -/
theorem onRail_rail_of_not_active (r : Rail) (f : RailStep → RailStep) (d : Delta) (r' : Rail) (hne : r ≠ r')
    (h : (d.s.rail r').state.active = false) : (onRail r f d).s.rail r' = d.s.rail r' := by
  rw [onRail, commit_rail]; simp [hne, h]

/-- Entering LOWERING is no cut (R22). -/
theorem enterLowering_not_cut (now : Uptime) (c : RailChan) : (enterLowering now (RailStep.of c)).ownCut = false := by
  have h1 (e : RailStep) : (startBackfeed now e).ownCut = e.ownCut := by
    unfold startBackfeed; split
    · split <;> rfl
    · rfl
  have h2 (e : RailStep) : (enterOff now e).ownCut = e.ownCut := by
    simp only [enterOff, judgeOff]; split
    · rfl
    · rw [h1]; rfl
  simp only [enterLowering]; split
  · rw [h2]; rfl
  · rfl

/-- LOWER changes its rail alone. -/
theorem doLower_rail (r : Rail) (d : Delta) (r' : Rail) :
    (doLower r d).s.rail r' = if r = r' then (enterLowering d.s.now (RailStep.of (d.s.rail r))).rc else d.s.rail r' := by
  rw [doLower, onRail, commit_rail_of_not_cut _ _ _ (enterLowering_not_cut _ _)]

/-! ### Commands over a list of rails -/

/-- A fold of acts over distinct rails, each allowed as long as its rail stands as it was at the start. -/
theorem fold_acts (act : Rail → Delta → Delta) (l : List Rail) (d : Delta) (hl : l.Nodup)
    (hact : ∀ (r : Rail) (d' : Delta), r ∈ l → d'.s.rail r = d.s.rail r →
      ∀ r', RailActs (d'.s.rail r') ((act r d').s.rail r'))
    (hkeep : ∀ (r r' : Rail) (d' : Delta), r ∈ l → r' ∈ l → r ≠ r' → d'.s.rail r = d.s.rail r → d'.s.rail r' = d.s.rail r' →
      (act r d').s.rail r' = d.s.rail r') (r' : Rail) :
    RailActs (d.s.rail r') ((l.foldl (fun d r => act r d) d).s.rail r') := by
  suffices H : ∀ (m : List Rail) (d' : Delta), (∀ r ∈ m, r ∈ l) → m.Nodup → (∀ r ∈ m, d'.s.rail r = d.s.rail r) →
      RailActs (d'.s.rail r') ((m.foldl (fun d r => act r d) d').s.rail r') from H l d (fun _ h => h) hl (fun _ _ => rfl)
  intro m
  induction m with
  | nil => intro d' _ _ _; exact .refl
  | cons a m ih =>
    intro d' hsub hnd hsame
    obtain ⟨ha, hm⟩ := List.nodup_cons.mp hnd
    have hal := hsub a (by simp)
    have haa := hsame a (by simp)
    refine (hact a d' hal haa r').trans (ih (act a d') (fun r h => hsub r (by simp [h])) hm ?_)
    intro r hr
    exact hkeep a r d' hal (hsub r (by simp [hr])) (fun e => ha (e ▸ hr)) haa (hsame r (by simp [hr]))

theorem doRaise_acts (s : State) (r : Rail) (d' : Delta) (h : (judgeRaise s r).code = .accepted) (hs : d'.s.rail r = s.rail r)
    (r' : Rail) : RailActs (d'.s.rail r') ((doRaise r d').s.rail r') := by
  obtain ⟨h1, h2, _, _⟩ := judgeRaise_accepted h
  exact onRail_acts r _ d' (.raise _ _ _ (by rw [hs]; exact h1) (by rw [hs]; exact h2)) r'

theorem doLower_acts (s : State) (r : Rail) (d' : Delta) (h : (s.rail r).state.active = true) (hs : d'.s.rail r = s.rail r)
    (r' : Rail) : RailActs (d'.s.rail r') ((doLower r d').s.rail r') :=
  onRail_acts r _ d' (.lower _ _ (by rw [hs]; exact h)) r'

theorem doClear_acts (s : State) (r : Rail) (d' : Delta) (h : (judgeClear s r).code = .accepted) (hs : d'.s.rail r = s.rail r)
    (r' : Rail) : RailActs (d'.s.rail r') ((doClear r d').s.rail r') := by
  obtain ⟨h1, _, h2⟩ := judgeClear_accepted h
  exact onRail_acts r _ d' (.clear _ _ (by rw [hs]; exact h1) (by rw [hs]; exact h2)) r'

theorem selected_nodup (s : State) (tag mask : BitVec 4) : (s.selected tag mask).Nodup := (List.nodup_finRange 16).filter _

/-- A single-rail command acts on every rail. -/
theorem railCommandOf_acts (judge : State → Rail → Verdict) (act : Rail → Delta → Delta) (b : Byte) (s : State)
    (hact : ∀ r, (judge s r).code = .accepted → ∀ r', RailActs (s.rail r') ((act r (Delta.of s)).s.rail r')) (r' : Rail) :
    RailActs (s.rail r') ((railCommandOf judge act b s).2.s.rail r') := by
  unfold railCommandOf
  split
  · exact .refl
  · simp only [railCommand]
    split
    · rename_i h; exact hact _ h r'
    · exact .refl

/-- RAISE_GROUP and CLEAR_GROUP act on every rail. -/
theorem groupEach_acts (judge : State → Rail → Verdict) (act : Rail → Delta → Delta) (tag mask : BitVec 4) (s : State)
    (hact : ∀ (r : Rail) (d' : Delta), (judge s r).code = .accepted → d'.s.rail r = s.rail r →
      ∀ r', RailActs (d'.s.rail r') ((act r d').s.rail r'))
    (hkeep : ∀ (r r' : Rail) (d' : Delta), (judge s r').code = .accepted → r ≠ r' → d'.s.rail r' = s.rail r' →
      (act r d').s.rail r' = d'.s.rail r') (r' : Rail) :
    RailActs (s.rail r') ((groupEach judge act tag mask s).2.s.rail r') := by
  unfold groupEach
  split
  · exact .refl
  · rename_i sel hsel
    have hl : ((s.selected tag mask).filter (fun r => (judge s r).code == .accepted)).Nodup := (selected_nodup s tag mask).filter _
    refine fold_acts act _ (Delta.of s) hl ?_ ?_ r'
    · intro r d' hr hs
      exact hact r d' (by simpa using (List.mem_filter.mp hr).2) hs
    · intro r r2 d' _ hr2 hne _ hs2
      rw [hkeep r r2 d' (by simpa using (List.mem_filter.mp hr2).2) hne hs2, hs2]

/-- LOWER_GROUP acts on every rail. -/
theorem groupLower_acts (tag mask : BitVec 4) (s : State) (r' : Rail) :
    RailActs (s.rail r') ((groupLower tag mask s).2.s.rail r') := by
  unfold groupLower
  split
  · exact .refl
  · split
    · exact .refl
    · split
      · exact .refl
      · rename_i low hlow
        have hl : ((s.selected tag mask).filter (fun r => (s.rail r).state.active)).Nodup := (selected_nodup s tag mask).filter _
        refine fold_acts doLower _ (Delta.of s) hl ?_ ?_ r'
        · intro r d' hr hs
          exact doLower_acts s r d' (List.mem_filter.mp hr).2 hs
        · intro r r2 d' _ _ hne _ hs2
          rw [doLower_rail]; simp [hne, hs2]

/-- The command of an issuing step acts on every rail. -/
theorem issue_rails (kind : StepKind) (st : StepRec) (s : State) (r' : Rail) : RailActs (s.rail r') ((issue kind st s).2.s.rail r') := by
  have hraise : ∀ (r r2 : Rail) (d' : Delta), (judgeRaise s r2).code = .accepted → r ≠ r2 → d'.s.rail r2 = s.rail r2 →
      (doRaise r d').s.rail r2 = d'.s.rail r2 := by
    intro r r2 d' h hne hs
    exact onRail_rail_of_not_active r _ d' r2 hne (by rw [hs, (judgeRaise_accepted h).1]; rfl)
  have hclear : ∀ (r r2 : Rail) (d' : Delta), (judgeClear s r2).code = .accepted → r ≠ r2 → d'.s.rail r2 = s.rail r2 →
      (doClear r d').s.rail r2 = d'.s.rail r2 := by
    intro r r2 d' h hne hs
    refine onRail_rail_of_not_active r _ d' r2 hne ?_
    rcases (judgeClear_accepted h).1 with h1 | h1 <;> rw [hs, h1] <;> rfl
  unfold issue
  split
  · split
    · exact groupEach_acts _ _ _ _ s (fun r d' h hs => doRaise_acts s r d' h hs) hraise r'
    · exact railCommandOf_acts _ _ _ s (fun r h => doRaise_acts s r (Delta.of s) h rfl) r'
  · split
    · exact groupLower_acts _ _ s r'
    · exact railCommandOf_acts _ _ _ s (fun r h => doLower_acts s r (Delta.of s) (judgeLower_accepted h).1 rfl) r'
  · split
    · exact groupEach_acts _ _ _ _ s (fun r d' h hs => doClear_acts s r d' h hs) hclear r'
    · exact railCommandOf_acts _ _ _ s (fun r h => doClear_acts s r (Delta.of s) h rfl) r'
  · exact .refl

/-- A move acts on every rail. -/
theorem move_rails {s t : State} (h : Move s t) (r : Rail) : RailActs (s.rail r) (t.rail r) := by
  cases h with
  | command kind st => exact issue_rails kind st s r
  | record kind role c => rw [logEngine_rail]
  | _ => exact .refl

/-- A sequence of moves acts on every rail. -/
theorem moves_rails {s t : State} (h : Moves s t) (r : Rail) : RailActs (s.rail r) (t.rail r) := by
  induction h with
  | refl => exact .refl
  | tail _ hm ih => exact ih.trans (move_rails hm r)

/-- The hand-on of an event acts on every rail. -/
theorem finish_rails (d : Delta) (r : Rail) : RailActs (d.s.rail r) ((finish d).rail r) := moves_rails (finish_moves d) r

end Sys2Proof.Machine
end

