-- ==== Sys2Proof/Laws/ExecRails.lean ====
section
/-! SUPPORT. What any command does to each rail, said once: every rail undergoes a sequence of rail events (`exec_rails`). A law of rails that
each rail event keeps is kept by every step (`step_everyRail`). -/

namespace Sys2Proof.Machine

/-- One event of a rail. -/
inductive RailEvent : RailChan → RailChan → Prop where
  | act {a b : RailChan} : RailAct a b → RailEvent a b
  | senseVoltage (c : RailChan) (mv : Nat) : RailEvent c { c with senseMv := mv }
  | senseCurrent (c : RailChan) (ma : Nat) : RailEvent c { c with senseMa := ma }
  | note (c : RailChan) (b : BandReports) : RailEvent c { c with bands := b }
  | zone (now : Uptime) (z : Zone) (c : RailChan) : RailEvent c (takeZone now z (RailStep.of c)).rc
  | flag (now : Uptime) (b : Bool) (c : RailChan) : RailEvent c (takeFlag now b (RailStep.of c)).rc
  | xfAssert (now : Uptime) (c : RailChan) : RailEvent c (railXfAssert now (RailStep.of c)).rc
  | xfDeassert (c : RailChan) : RailEvent c (railXfDeassert c)
  | ramp (now : Uptime) (c : RailChan) : RailEvent c (railRampExpiry now (RailStep.of c)).rc
  | settle (c : RailChan) : RailEvent c (railSettleExpiry (RailStep.of c)).rc
  | discharge (c : RailChan) : RailEvent c (railDischargeExpiry (RailStep.of c)).rc
  | backfeed (c : RailChan) : RailEvent c (railBackfeedExpiry (RailStep.of c)).rc
  | uv (now : Uptime) (c : RailChan) : RailEvent c (railUvExpiry now (RailStep.of c)).rc
  | oc (now : Uptime) (c : RailChan) : RailEvent c (railOcExpiry now (RailStep.of c)).rc
  | retry (now : Uptime) (xf on kill : Bool) (c : RailChan) : RailEvent c (railRetryExpiry now xf on kill (RailStep.of c)).rc
  | kill (now : Uptime) (c : RailChan) : RailEvent c (railKill now (RailStep.of c)).rc
  | write (now : Uptime) (cfg : RailCfg) (z : Zone) (b : Bool) (c : RailChan) (hs : c.state = .off ∨ c.state = .unused) :
      RailEvent c (railWrite now cfg z b (RailStep.of c)).rc
  | reset (z : Zone) (b : Bool) (mv ma : Nat) (c : RailChan) : RailEvent c (RailChan.atReset z b mv ma)

/-- A sequence of rail events. -/
abbrev RailEvents : RailChan → RailChan → Prop := Relation.ReflTransGen RailEvent

/-- A law of rails that each event keeps is kept by a sequence of events. -/
theorem RailEvents.keeps {a b : RailChan} (h : RailEvents a b) (P : RailChan → Prop) (hP : ∀ x y, RailEvent x y → P x → P y)
    (ha : P a) : P b := by
  induction h with
  | refl => exact ha
  | tail _ hm ih => exact hP _ _ hm ih

theorem RailActs.events {a b : RailChan} (h : RailActs a b) : RailEvents a b := by
  induction h with
  | refl => exact .refl
  | tail _ hm ih => exact ih.tail (.act hm)

theorem RailEvents.of_eq {a b : RailChan} (h : a = b) : RailEvents a b := h ▸ .refl

/-! ### Rail events handed on -/

/-- A rail event is an event of its rail, and at most a cascade for the others. -/
theorem onRail_events (r : Rail) (f : RailStep → RailStep) (d : Delta)
    (h : RailEvents (d.s.rail r) (f (RailStep.of (d.s.rail r))).rc) (r' : Rail) :
    RailEvents (d.s.rail r') ((onRail r f d).s.rail r') := by
  have h0 : RailEvents (d.s.rail r') (if r = r' then (f (RailStep.of (d.s.rail r))).rc else d.s.rail r') := by
    split
    · rename_i e; subst e; exact h
    · exact .refl
  rw [onRail, commit_rail]
  generalize (if r = r' then (f (RailStep.of (d.s.rail r))).rc else d.s.rail r') = c at h0 ⊢
  split
  · rename_i hc; exact h0.tail (.act (.cascade _ _ hc.2.2))
  · exact h0

/-- A rail event with its hand-on. -/
theorem finish_onRail_events (r : Rail) (f : RailStep → RailStep) (d : Delta)
    (h : RailEvents (d.s.rail r) (f (RailStep.of (d.s.rail r))).rc) (r' : Rail) :
    RailEvents (d.s.rail r') ((finish (onRail r f d)).rail r') :=
  (onRail_events r f d h r').trans (finish_rails _ r').events

theorem railExpiry_events (r : Rail) (f : RailStep → RailStep) (s : State)
    (h : RailEvents (s.rail r) (f (RailStep.of (s.rail r))).rc) (r' : Rail) :
    RailEvents (s.rail r') ((railExpiry r f s).rail r') := finish_onRail_events r f (Delta.of s) h r'

/-! ### Commands -/

theorem answer_rail (v : Verdict) (s : State) (r : Rail) : (answer v s).rail r = s.rail r := by
  unfold answer; split <;> rfl

/-- A command's answer and its guard leave the rails to its owner. -/
theorem hostCommand_events (code : Byte) (owner : State → Verdict × State) (s : State) (r : Rail)
    (h : ∀ s : State, RailEvents (s.rail r) ((owner s).2.rail r)) : RailEvents (s.rail r) ((hostCommand code owner s).rail r) := by
  unfold hostCommand busWrite
  split
  · exact .refl
  · simp only [answer_rail]; exact h (setCmd code s)

theorem hostCommand_rail (code : Byte) (owner : State → Verdict × State) (s : State) (r : Rail)
    (h : ∀ s : State, (owner s).2.rail r = s.rail r) : RailEvents (s.rail r) ((hostCommand code owner s).rail r) :=
  hostCommand_events code owner s r (fun s => .of_eq (h s).symm)

theorem hostCommand_moves_events (code : Byte) (owner : State → Verdict × State) (s : State) (r : Rail)
    (h : ∀ s : State, Moves s (owner s).2) : RailEvents (s.rail r) ((hostCommand code owner s).rail r) :=
  hostCommand_events code owner s r (fun s => (moves_rails (h s) r).events)

/-- A rail command or group command from the host, by the step that would issue it. -/
theorem ownRails_events (f : State → Verdict × Delta) (s : State) (r : Rail)
    (h : RailActs (s.rail r) ((f s).2.s.rail r)) : RailEvents (s.rail r) ((ownRails f s).2.rail r) :=
  (RailActs.events (h.trans (finish_rails _ r)))

theorem hostRaise_acts (b : Byte) (s : State) (r : Rail) :
    RailActs (s.rail r) ((railCommandOf judgeRaise doRaise b s).2.s.rail r) :=
  railCommandOf_acts _ _ _ s (fun r h => doRaise_acts s r (Delta.of s) h rfl) r

theorem hostLower_acts (b : Byte) (s : State) (r : Rail) :
    RailActs (s.rail r) ((railCommandOf judgeLower doLower b s).2.s.rail r) :=
  railCommandOf_acts _ _ _ s (fun r h => doLower_acts s r (Delta.of s) (judgeLower_accepted h).1 rfl) r

theorem hostClear_acts (b : Byte) (s : State) (r : Rail) :
    RailActs (s.rail r) ((railCommandOf judgeClear doClear b s).2.s.rail r) :=
  railCommandOf_acts _ _ _ s (fun r h => doClear_acts s r (Delta.of s) h rfl) r

theorem groupCommandOf_acts (run : BitVec 4 → BitVec 4 → State → Verdict × Delta) (a b : Byte) (s : State) (r : Rail)
    (h : ∀ t m, RailActs (s.rail r) ((run t m s).2.s.rail r)) : RailActs (s.rail r) ((groupCommandOf run a b s).2.s.rail r) := by
  unfold groupCommandOf; split
  · exact .refl
  · exact h _ _

theorem raiseGroup_acts (t m : BitVec 4) (s : State) (r : Rail) :
    RailActs (s.rail r) ((groupEach judgeRaise doRaise t m s).2.s.rail r) :=
  groupEach_acts _ _ _ _ s (fun r d' h hs => doRaise_acts s r d' h hs)
    (fun r r2 d' h hne hs => onRail_rail_of_not_active r _ d' r2 hne (by rw [hs, (judgeRaise_accepted h).1]; rfl)) r

theorem clearGroup_acts (t m : BitVec 4) (s : State) (r : Rail) :
    RailActs (s.rail r) ((groupEach judgeClear doClear t m s).2.s.rail r) :=
  groupEach_acts _ _ _ _ s (fun r d' h hs => doClear_acts s r d' h hs)
    (fun r r2 d' h hne hs => onRail_rail_of_not_active r _ d' r2 hne (by
      rcases (judgeClear_accepted h).1 with h1 | h1 <;> rw [hs, h1] <;> rfl)) r

theorem writeDelta_events (s : State) (r0 r : Rail) (h : (judgeWrite s r0).code = .accepted) :
    RailEvents (s.rail r) ((applyWrite s r0).rail r) := by
  have hs : (s.rail r0).state = .off ∨ (s.rail r0).state = .unused := by
    unfold judgeWrite at h
    split at h
    · cases h
    · rename_i hn; by_contra hc; simp_all
  simp only [applyWrite, recomputeFlt_rail, writeDelta]
  exact finish_onRail_events r0 _ (Delta.of (nextFree s)) (.single (.write _ _ _ _ _ hs)) r

theorem emptyPlan_rail (p : PlanNo) (s : State) (r : Rail) : (emptyPlan p s).rail r = s.rail r := by
  unfold emptyPlan; dsimp only; split <;> rfl

theorem stopRun_moves (o : RunOutcome) (s : State) : Moves s (stopRun o s) := by
  unfold stopRun; split
  · exact (endRun_moves _ _ _ _ _).trans (goIdle_moves _)
  · exact .refl

theorem hostEngineReset_rail (s : State) (r : Rail) : RailEvents (s.rail r) ((hostEngineReset s).2.rail r) := by
  have h := (moves_rails (stopRun_moves .reset s) r).events
  have h2 : (hostEngineReset s).2.rail r = (stopRun .reset s).rail r := by
    simp only [hostEngineReset, setFlag_rail, emptyDefining]
    split
    · rw [emptyPlan_rail]; rfl
    · rfl
  rw [h2]; exact h

theorem hostRun_moves (s : State) : Moves s (hostRun s).2 := by
  unfold hostRun
  repeat' split
  all_goals first | exact .refl | exact joinQueue_moves _ _

theorem hostCancel_moves (s : State) : Moves s (hostCancel s).2 := by
  unfold hostCancel
  repeat' split
  all_goals first | exact .refl | exact (Move.queue _ _).moves

theorem hostRelease_moves (s : State) : Moves s (hostRelease s).2 := by
  unfold hostRelease
  repeat' split
  all_goals first
    | exact .refl
    | exact ((Move.timers _ _ _ _).moves.trans (nextSteps_moves _ { s := s.setEngineTimers _ _ _, reqs := [] })).trans
        (finishWork_moves _)

theorem hostAbort_moves (s : State) : Moves s (hostAbort s).2 := by
  unfold hostAbort
  split
  · exact ((endRun_moves _ _ _ _ _).trans (chooseNext_moves _ { s := endRun _ _ _ _ s, reqs := [] })).trans (finishWork_moves _)
  · exact .refl

/-! ### The window -/

theorem busWrite_rail (f : State → State) (s : State) (r : Rail) (h : ∀ s, (f s).rail r = s.rail r) :
    RailEvents (s.rail r) ((busWrite f s).rail r) := by
  unfold busWrite; split
  · exact .refl
  · exact .of_eq (h s).symm

theorem busRead_rail (f : State → Byte × State) (s : State) (r : Rail) (h : ∀ s, (f s).2.rail r = s.rail r) :
    RailEvents (s.rail r) ((busRead f s).rail r) := by
  unfold busRead; split
  · exact .refl
  · exact .of_eq (h s).symm

theorem takeCopy_rail (s : State) (r : Rail) : (takeCopy s).rail r = s.rail r := by
  unfold takeCopy; split
  · rfl
  · split <;> rfl

theorem writeTdata_rail (v : Byte) (s : State) (r : Rail) : (writeTdata v s).rail r = s.rail r := by
  simp only [writeTdata, advancePointer]
  split
  · rfl
  · unfold storeStep; split
    · rfl
    · split <;> rfl
  · rfl

theorem readTdata_rail (s : State) (r : Rail) : (readTdata s).2.rail r = s.rail r := by
  unfold readTdata
  split
  · exact takeCopy_rail s r
  · rfl

/-- What each of the eighteen commands does to each rail. -/
theorem ownerOf_events (c : Command) (s : State) (r : Rail) : RailEvents (s.rail r) ((ownerOf c s).2.rail r) := by
  cases c
  · exact ownRails_events _ s r (hostRaise_acts _ s r)
  · exact ownRails_events _ s r (hostLower_acts _ s r)
  · exact ownRails_events _ s r (hostClear_acts _ s r)
  · exact ownRails_events _ s r (groupCommandOf_acts _ _ _ s r (fun t m => raiseGroup_acts t m s r))
  · exact ownRails_events _ s r (groupCommandOf_acts _ _ _ s r (fun t m => groupLower_acts t m s r))
  · exact ownRails_events _ s r (groupCommandOf_acts _ _ _ s r (fun t m => clearGroup_acts t m s r))
  · refine .of_eq ?_; simp only [ownerOf, hostLoadRail]; split <;> rfl
  · simp only [ownerOf, hostWriteRail]
    split
    · exact .refl
    · simp only; split
      · rename_i h; exact writeDelta_events s _ r h
      · exact .refl
  · refine .of_eq ?_; simp only [ownerOf, hostDefine, judgeDefine]; repeat' (first | rfl | split)
  · refine .of_eq ?_; simp only [ownerOf, hostCommit]; repeat' (first | rfl | split)
  · refine .of_eq ?_
    simp only [ownerOf, hostErase]
    repeat' split
    all_goals first | rfl | (rw [emptyPlan_rail])
  · exact (moves_rails (hostRun_moves s) r).events
  · exact (moves_rails (hostCancel_moves s) r).events
  · exact (moves_rails (hostRelease_moves s) r).events
  · exact (moves_rails (hostAbort_moves s) r).events
  · refine .of_eq ?_; simp only [ownerOf, hostLogPop]; split <;> rfl
  · refine .of_eq ?_; simp only [ownerOf, hostShedAck]; repeat' (first | rfl | split)
  · exact hostEngineReset_rail s r

theorem writeCmd_events (code : Byte) (s : State) (r : Rail) : RailEvents (s.rail r) ((writeCmd code s).rail r) := by
  unfold writeCmd
  split
  · exact hostCommand_events _ _ s r (fun s => ownerOf_events _ s r)
  · exact hostCommand_rail _ _ s r (fun s => rfl)

theorem writeLocation_events (addr : Addr) (v : Byte) (s : State) (r : Rail) :
    RailEvents (s.rail r) ((writeLocation addr v s).rail r) := by
  unfold writeLocation
  split
  all_goals first
    | exact writeCmd_events v s r
    | exact busWrite_rail _ s r (fun s => rfl)
    | exact busWrite_rail (writeArg _ v) s r (fun s => rfl)
    | exact busWrite_rail _ s r (fun s => takeCopy_rail { s with bus := _ } r)
    | exact busWrite_rail _ s r (fun s => writeTdata_rail v s r)
    | exact .refl

/-! ### Inputs and resets -/

theorem resetBlocks_events (s : State) (r : Rail) : RailEvents (s.rail r) ((resetBlocks s).rail r) := by
  have h : (resetBlocks s).rail r = resetRail s.freeIndex r (s.rail r) := by simp [resetBlocks, State.rail]
  rw [h]; exact .single (.reset _ _ _ _ _)

theorem killEffect_events (s : State) (r : Rail) : RailEvents (s.rail r) ((killEffect s).rail r) := by
  have hk : ∀ (l : List Rail) (d : Delta),
      RailEvents (d.s.rail r) ((l.foldl (fun d r => onRail r (railKill d.s.now) d) d).s.rail r) := by
    intro l
    induction l with
    | nil => intro d; exact .refl
    | cons a l ih => intro d; exact (onRail_events a _ d (.single (.kill _ _)) r).trans (ih _)
  have hm : Moves (killRails s).s (killEffect s) :=
    (((((stopRun_moves .killed _).trans (Move.timers _ _ _ _).moves).trans (Move.queue _ _).moves).trans
      (Move.slot _ _).moves).trans (addChanged_list_moves _ _)).trans ((Move.shed _).moves.trans (Move.flag _ _).moves)
  exact (hk allRails (Delta.of s)).trans (moves_rails hm r).events

theorem endOfReset_events (s : State) (r : Rail) : RailEvents (s.rail r) ((endOfReset s).rail r) := by
  have h : RailEvents (s.rail r) ((setFlag .restart (resetBlocks s)).rail r) := resetBlocks_events s r
  simp only [endOfReset]; split
  · exact h.trans (killEffect_events _ r)
  · exact h

theorem setXf_rail' (s : State) (x : XfInput) (b : Bool) (r : Rail) : (s.setXf x b).rail r = s.rail r := by cases x <;> rfl

theorem xfAssertion_events (x : XfInput) (s : State) (r : Rail) : RailEvents (s.rail r) ((xfAssertion x s).rail r) := by
  have hf : ∀ (l : List Rail) (t : State), RailEvents (t.rail r) ((l.foldl (fun t r => takeAssertion r t) t).rail r) := by
    intro l
    induction l with
    | nil => intro t; exact .refl
    | cons a l ih =>
      intro t
      exact (finish_onRail_events a _ (Delta.of t) (.single (.xfAssert _ _)) r).trans (ih _)
  unfold xfAssertion
  split
  · exact .refl
  · split
    · exact .of_eq (setXf_rail' s x true r).symm
    · refine (RailEvents.of_eq ?_).trans (hf _ _)
      exact (setXf_rail' s x true r).symm

theorem xfDeassertion_events (x : XfInput) (s : State) (r : Rail) : RailEvents (s.rail r) ((xfDeassertion x s).rail r) := by
  have hf : ∀ (l : List Rail) (t : State), RailEvents (t.rail r) ((l.foldl (fun t r => takeDeassertion r t) t).rail r) := by
    intro l
    induction l with
    | nil => intro t; exact .refl
    | cons a l ih =>
      intro t
      refine Relation.ReflTransGen.trans ?_ (ih _)
      simp only [takeDeassertion, setRail_rail]
      split
      · rename_i e; subst e; exact .single (.xfDeassert _)
      · exact .refl
  unfold xfDeassertion
  split
  · exact .refl
  · split
    · exact .of_eq (setXf_rail' s x false r).symm
    · refine (RailEvents.of_eq ?_).trans (hf _ _)
      exact (setXf_rail' s x false r).symm

theorem pwrRequest_moves (s : State) : Moves s (pwrRequest s) := by
  unfold pwrRequest
  repeat' split
  all_goals first | exact .refl | exact (Move.record _ _ _ _).moves | exact joinQueue_moves _ _

/-! ### Every command -/

/-- What any command does to each rail. -/
theorem exec_rails {c : Instr} {s t : State} (h : exec c s = .next t) (r : Rail) : RailEvents (s.rail r) (t.rail r) := by
  have hw (f : State → State) (hf : ∀ s, (f s).rail r = s.rail r) (s : State) := busWrite_rail f s r hf
  cases c <;> injection h with h <;> subst h
  case raise => exact hostCommand_events _ _ s r (fun s => ownerOf_events .raise s r)
  case lower => exact hostCommand_events _ _ s r (fun s => ownerOf_events .lower s r)
  case clear => exact hostCommand_events _ _ s r (fun s => ownerOf_events .clear s r)
  case raiseGroup => exact hostCommand_events _ _ s r (fun s => ownerOf_events .raiseGroup s r)
  case lowerGroup => exact hostCommand_events _ _ s r (fun s => ownerOf_events .lowerGroup s r)
  case clearGroup => exact hostCommand_events _ _ s r (fun s => ownerOf_events .clearGroup s r)
  case loadRail => exact hostCommand_events _ _ s r (fun s => ownerOf_events .loadRail s r)
  case writeRail => exact hostCommand_events _ _ s r (fun s => ownerOf_events .writeRail s r)
  case define => exact hostCommand_events _ _ s r (fun s => ownerOf_events .define s r)
  case commit => exact hostCommand_events _ _ s r (fun s => ownerOf_events .commit s r)
  case erase => exact hostCommand_events _ _ s r (fun s => ownerOf_events .erase s r)
  case run => exact hostCommand_events _ _ s r (fun s => ownerOf_events .run s r)
  case cancel => exact hostCommand_events _ _ s r (fun s => ownerOf_events .cancel s r)
  case release => exact hostCommand_events _ _ s r (fun s => ownerOf_events .release s r)
  case abort => exact hostCommand_events _ _ s r (fun s => ownerOf_events .abort s r)
  case logPop => exact hostCommand_events _ _ s r (fun s => ownerOf_events .logPop s r)
  case shedAck => exact hostCommand_events _ _ s r (fun s => ownerOf_events .shedAck s r)
  case engineReset => exact hostCommand_events _ _ s r (fun s => ownerOf_events .engineReset s r)
  case badCommand code => exact writeCmd_events code s r
  case evtWrite v => exact hw (writeEvt v) (fun s => rfl) s
  case evenWrite v => exact hw (writeEven v) (fun s => rfl) s
  case rchgWrite u v => exact hw (writeRchg u v) (fun s => rfl) s
  case ecfgWrite v => exact hw (writeEcfg v) (fun s => rfl) s
  case tselWrite v => exact hw (writeTsel v) (fun s => takeCopy_rail _ r) s
  case tidxWrite v => exact hw (writeTidx v) (fun s => takeCopy_rail _ r) s
  case tdataRead => exact busRead_rail _ s r (fun s => readTdata_rail s r)
  case tdataWrite v => exact hw (writeTdata v) (fun s => writeTdata_rail v s r) s
  case upt0Read => exact busRead_rail _ s r (fun s => rfl)
  case engstLowRead => exact busRead_rail _ s r (fun s => rfl)
  case registerWrite a v => exact writeLocation_events a v s r
  case powerOnReset =>
    simp only [powerOn]; split
    · exact resetBlocks_events s r
    · exact endOfReset_events s r
  case resetAssertion =>
    simp only [resetAssert]; split
    · exact .refl
    · exact resetBlocks_events (s.setReset true) r
  case resetDeassertion =>
    simp only [resetDeassert]; split
    · exact endOfReset_events (s.setReset false) r
    · exact .refl
  case killAssertionEdge =>
    simp only [killAssertion]; split
    · exact .refl
    · split
      · exact .refl
      · exact killEffect_events (s.setKill true) r
  case killDeassertionEdge =>
    simp only [killDeassertion]; repeat' split
    all_goals exact .refl
  case xfAssertionEdge x => exact xfAssertion_events x s r
  case xfDeassertionEdge x => exact xfDeassertion_events x s r
  case pwrreqFallingEdge =>
    simp only [pwrreqFalling]; split
    · exact .refl
    · split
      · exact .refl
      · exact (moves_rails (pwrRequest_moves (s.setPwrreq true)) r).events
  case pwrreqRisingEdge => exact .refl
  case zoneArrival r0 z mv =>
    have hsense : RailEvents (s.rail r) ((s.senseVoltage r0 mv).rail r) := by
      simp only [State.senseVoltage, setRail_rail]; split
      · rename_i e; subst e; exact .single (.senseVoltage _ _)
      · exact .refl
    simp only [zoneArrival]
    split
    · exact hsense
    · split
      · exact .refl
      · split
        · simp only [setRail_rail]; split
          · rename_i e; subst e; exact (Relation.ReflTransGen.single (.senseVoltage _ mv)).tail (.note _ _)
          · exact .refl
        · exact hsense.trans (finish_onRail_events r0 _ (Delta.of (s.senseVoltage r0 mv)) (.single (.zone _ _ _)) r)
  case overCurrentArrival r0 b ma =>
    have hsense : RailEvents (s.rail r) ((s.senseCurrent r0 ma).rail r) := by
      simp only [State.senseCurrent, setRail_rail]; split
      · rename_i e; subst e; exact .single (.senseCurrent _ _)
      · exact .refl
    simp only [overCurrentArrival]
    split
    · exact hsense
    · split
      · exact .refl
      · split
        · simp only [setRail_rail]; split
          · rename_i e; subst e; exact (Relation.ReflTransGen.single (.senseCurrent _ ma)).tail (.note _ _)
          · exact .refl
        · exact hsense.trans (finish_onRail_events r0 _ (Delta.of (s.senseCurrent r0 ma)) (.single (.flag _ _ _)) r)
  case rampExpiry r0 => exact railExpiry_events r0 _ s (.single (.ramp _ _)) r
  case settleExpiry r0 => exact railExpiry_events r0 _ s (.single (.settle _)) r
  case dischargeExpiry r0 => exact railExpiry_events r0 _ s (.single (.discharge _)) r
  case backfeedFilterExpiry r0 => exact railExpiry_events r0 _ s (.single (.backfeed _)) r
  case uvFilterExpiry r0 => exact railExpiry_events r0 _ s (.single (.uv _ _)) r
  case ocFilterExpiry r0 => exact railExpiry_events r0 _ s (.single (.oc _ _)) r
  case retryExpiry r0 => exact railExpiry_events r0 _ s (.single (.retry _ _ _ _ _)) r
  case quietExpiry =>
    refine (moves_rails ?_ r).events
    simp only [quietExpiry]; split
    · exact .refl
    · split
      · exact (((Move.timers s none _ _).moves.trans (runSteps_moves _ _ { s := s.setEngineTimers none _ _, reqs := [] })).trans
          (carryOn_moves (runSteps _ _ { s := s.setEngineTimers none _ _, reqs := [] }).1 _)).trans (finishWork_moves _)
      · exact .refl
  case stepTimerExpiry =>
    refine (moves_rails ?_ r).events
    have h1 (e : ChainEnd) : Moves s (finishWork (carryOn { s := endWait s, reqs := [] } e)) :=
      ((endWait_moves s).trans (carryOn_moves { s := endWait s, reqs := [] } e)).trans (finishWork_moves _)
    simp only [stepTimerExpiry]; split
    · exact .refl
    · split
      · split
        · exact h1 _
        · exact h1 _
        · exact ((endWait_moves s).trans (completeStep_moves _ { s := endWait s, reqs := [] })).trans (finishWork_moves _)
        · exact .refl
      · exact .refl
  case holdExpiry =>
    refine (moves_rails ?_ r).events
    simp only [holdExpiry]; split
    · exact .refl
    · split
      · exact (carryOn_moves { s := s, reqs := [] } _).trans (finishWork_moves _)
      · exact .refl
  case uptimeTick =>
    simp only [uptimeTick]; split <;> exact .refl

/-- A law of rails that each rail event keeps is kept by every step. -/
theorem step_everyRail (P : RailChan → Prop) (hP : ∀ x y, RailEvent x y → P x → P y) {s t : State} (h : step s = .next t)
    (hs : s.everyRail P) : t.everyRail P := by
  unfold step at h
  split at h
  · injection h with h; subst h; exact hs
  · intro r
    exact (exec_rails h r).keeps P hP (hs r)

end Sys2Proof.Machine
end

