-- ==== Sys2Proof/Laws/PerInstr.lean ====
section
/-! SUPPORT. The family WellFormed: a well-formed row that is a bus cycle is the row which that cycle spells, and a row that is a bus cycle of another
row is not well formed (R173, R174, R177). One lemma per command. -/

namespace Sys2Proof.Laws.WellFormed

open Sys2Proof.Machine

/-- A row that is a bus cycle is spelled by that cycle exactly when it is well formed; the other rows have no cycle. -/
def Statement (i : Instr) : Prop :=
  match cycleOf i with
  | some x => i.wf = true ↔ rowOfCycle x = some i
  | none => ∀ x, rowOfCycle x ≠ some i

/-- A row without a cycle is spelled by none. -/
theorem no_cycle (i : Instr) (h : cycleOf i = none) (x : Bool × Addr × Byte) : rowOfCycle x ≠ some i := by
  intro hx
  obtain ⟨w, a, v⟩ := x
  cases w
  · simp only [rowOfCycle, busCycle, rowOfRead, Bool.not_false] at hx
    split at hx <;> first | (injection hx with hx; subst hx; simp [cycleOf] at h) | cases hx
  · simp only [rowOfCycle, busCycle, rowOfWrite, rowOfCode, Bool.not_true, Option.some.injEq] at hx
    split at hx <;> (try split at hx) <;> (try split at hx) <;> (subst hx; simp [cycleOf] at h)

/-- The codes that name no command are those outside the list of codes. -/
theorem code_none (code : Byte) : commandOf code = none ↔ code ∉ commandCodes := by
  revert code; decide

/-- The addresses whose writes are rows of their own. -/
theorem own_address (a : Addr) : ownRowAddresses.contains a = [2, 3, 4, 5, 8, 0x15, 0x18, 0x19, 0x1B].contains a.toNat := by
  revert a; decide

theorem raise : Statement .raise := by
  exact ⟨fun _ => rfl, fun _ => rfl⟩

theorem lower : Statement .lower := by
  exact ⟨fun _ => rfl, fun _ => rfl⟩

theorem clear : Statement .clear := by
  exact ⟨fun _ => rfl, fun _ => rfl⟩

theorem raiseGroup : Statement .raiseGroup := by
  exact ⟨fun _ => rfl, fun _ => rfl⟩

theorem lowerGroup : Statement .lowerGroup := by
  exact ⟨fun _ => rfl, fun _ => rfl⟩

theorem clearGroup : Statement .clearGroup := by
  exact ⟨fun _ => rfl, fun _ => rfl⟩

theorem loadRail : Statement .loadRail := by
  exact ⟨fun _ => rfl, fun _ => rfl⟩

theorem writeRail : Statement .writeRail := by
  exact ⟨fun _ => rfl, fun _ => rfl⟩

theorem define : Statement .define := by
  exact ⟨fun _ => rfl, fun _ => rfl⟩

theorem commit : Statement .commit := by
  exact ⟨fun _ => rfl, fun _ => rfl⟩

theorem erase : Statement .erase := by
  exact ⟨fun _ => rfl, fun _ => rfl⟩

theorem run : Statement .run := by
  exact ⟨fun _ => rfl, fun _ => rfl⟩

theorem cancel : Statement .cancel := by
  exact ⟨fun _ => rfl, fun _ => rfl⟩

theorem release : Statement .release := by
  exact ⟨fun _ => rfl, fun _ => rfl⟩

theorem abort : Statement .abort := by
  exact ⟨fun _ => rfl, fun _ => rfl⟩

theorem logPop : Statement .logPop := by
  exact ⟨fun _ => rfl, fun _ => rfl⟩

theorem shedAck : Statement .shedAck := by
  exact ⟨fun _ => rfl, fun _ => rfl⟩

theorem engineReset : Statement .engineReset := by
  exact ⟨fun _ => rfl, fun _ => rfl⟩

theorem badCommand (code : Byte) : Statement (.badCommand code) := by
  have h := code_none code
  simp only [Statement, cycleOf, rowOfCycle, busCycle, Bool.not_true, rowOfWrite, rowOfCode, Instr.wf]
  cases hc : commandOf code with
  | none => simp [h.1 hc]
  | some c =>
    have : code ∈ commandCodes := by
      by_contra hh; rw [h.2 hh] at hc; cases hc
    cases c <;> simp [this]

theorem evtWrite (value : Byte) : Statement (.evtWrite value) := by
  exact ⟨fun _ => rfl, fun _ => rfl⟩

theorem evenWrite (value : Byte) : Statement (.evenWrite value) := by
  exact ⟨fun _ => rfl, fun _ => rfl⟩

theorem rchgWrite (upper : Bool) (value : Byte) : Statement (.rchgWrite upper value) := by
  cases upper <;> exact ⟨fun _ => rfl, fun _ => rfl⟩

theorem ecfgWrite (value : Byte) : Statement (.ecfgWrite value) := by
  exact ⟨fun _ => rfl, fun _ => rfl⟩

theorem tselWrite (value : Byte) : Statement (.tselWrite value) := by
  exact ⟨fun _ => rfl, fun _ => rfl⟩

theorem tidxWrite (value : Byte) : Statement (.tidxWrite value) := by
  exact ⟨fun _ => rfl, fun _ => rfl⟩

theorem tdataRead : Statement .tdataRead := by
  exact ⟨fun _ => rfl, fun _ => rfl⟩

theorem tdataWrite (value : Byte) : Statement (.tdataWrite value) := by
  exact ⟨fun _ => rfl, fun _ => rfl⟩

theorem upt0Read : Statement .upt0Read := by
  exact ⟨fun _ => rfl, fun _ => rfl⟩

theorem engstLowRead : Statement .engstLowRead := by
  exact ⟨fun _ => rfl, fun _ => rfl⟩

theorem registerWrite (addr : Addr) (value : Byte) : Statement (.registerWrite addr value) := by
  simp only [Statement, cycleOf, rowOfCycle, busCycle, Bool.not_true, rowOfWrite, rowOfCode, Instr.wf, own_address,
    Option.some.injEq]
  generalize addr.toNat = n
  split <;> try simp
  · split
    · simp
    · rename_i c _
      cases c <;> simp
  · simp_all

theorem powerOnReset : Statement .powerOnReset := by
  exact no_cycle _ rfl

theorem resetAssertion : Statement .resetAssertion := by
  exact no_cycle _ rfl

theorem resetDeassertion : Statement .resetDeassertion := by
  exact no_cycle _ rfl

theorem killAssertionEdge : Statement .killAssertionEdge := by
  exact no_cycle _ rfl

theorem killDeassertionEdge : Statement .killDeassertionEdge := by
  exact no_cycle _ rfl

theorem xfAssertionEdge (input : XfInput) : Statement (.xfAssertionEdge input) := by
  exact no_cycle _ rfl

theorem xfDeassertionEdge (input : XfInput) : Statement (.xfDeassertionEdge input) := by
  exact no_cycle _ rfl

theorem pwrreqFallingEdge : Statement .pwrreqFallingEdge := by
  exact no_cycle _ rfl

theorem pwrreqRisingEdge : Statement .pwrreqRisingEdge := by
  exact no_cycle _ rfl

theorem zoneArrival (rail : Rail) (zone : Zone) (mv : Nat) : Statement (.zoneArrival rail zone mv) := by
  exact no_cycle _ rfl

theorem overCurrentArrival (rail : Rail) (asserted : Bool) (ma : Nat) : Statement (.overCurrentArrival rail asserted ma) := by
  exact no_cycle _ rfl

theorem rampExpiry (rail : Rail) : Statement (.rampExpiry rail) := by
  exact no_cycle _ rfl

theorem settleExpiry (rail : Rail) : Statement (.settleExpiry rail) := by
  exact no_cycle _ rfl

theorem dischargeExpiry (rail : Rail) : Statement (.dischargeExpiry rail) := by
  exact no_cycle _ rfl

theorem backfeedFilterExpiry (rail : Rail) : Statement (.backfeedFilterExpiry rail) := by
  exact no_cycle _ rfl

theorem uvFilterExpiry (rail : Rail) : Statement (.uvFilterExpiry rail) := by
  exact no_cycle _ rfl

theorem ocFilterExpiry (rail : Rail) : Statement (.ocFilterExpiry rail) := by
  exact no_cycle _ rfl

theorem retryExpiry (rail : Rail) : Statement (.retryExpiry rail) := by
  exact no_cycle _ rfl

theorem quietExpiry : Statement .quietExpiry := by
  exact no_cycle _ rfl

theorem stepTimerExpiry : Statement .stepTimerExpiry := by
  exact no_cycle _ rfl

theorem holdExpiry : Statement .holdExpiry := by
  exact no_cycle _ rfl

theorem uptimeTick : Statement .uptimeTick := by
  exact no_cycle _ rfl

end Sys2Proof.Laws.WellFormed
end

