-- ==== Sys2Proof/Laws/RailEdits.lean ====
section
/-! SUPPORT. Every rail event, taken apart: it is a sequence of edits of the channel, each a plain update under the condition in which it is made
(`RailEvent.edits`). A law of rails is shown by looking at the edits one by one (`step_keeps_rail_law`). -/

namespace Sys2Proof.Machine

/-- One edit of a rail channel. -/
inductive RailEdit : RailChan → RailChan → Prop where
  | arms (c : RailChan) (ov uv oc ext bf : Bool) :
      RailEdit c { c with armOv := ov, armUv := uv, armOc := oc, armExt := ext, armBackfeed := bf }
  | view (c : RailChan) (z : Zone) (h : c.state = .ramping → c.settleT = none) : RailEdit c { c with zone := z }
  | flag (c : RailChan) (b : Bool) : RailEdit c { c with overCurrent := b }
  | bands (c : RailChan) (b : BandReports) : RailEdit c { c with bands := b }
  | sense (c : RailChan) (mv ma : Nat) : RailEdit c { c with senseMv := mv, senseMa := ma }
  | settle (c : RailChan) (t : Option Timer) (h : c.state = .ramping) (hz : t ≠ none → c.zone = .good) : RailEdit c { c with settleT := t }
  | rampOut (c : RailChan) (h : c.state = .ramping) : RailEdit c { c with rampT := none }
  | uv (c : RailChan) (t : Option Timer) (h : c.state = .on) : RailEdit c { c with uvT := t }
  | oc (c : RailChan) (t : Option Timer) (h : c.state.active = true) : RailEdit c { c with ocT := t }
  | backfeed (c : RailChan) (t : Option Timer) (h : c.state = .off) : RailEdit c { c with backfeedT := t }
  | toOn (c : RailChan) (h : c.state = .ramping) :
      RailEdit c { c with state := .on, rampT := none, settleT := none, en := true, dis := false }
  | locked (c : RailChan) (now : Uptime) (k : FaultKind) (h : c.state.active = true) (hk : k ≠ .backfeed) :
      RailEdit c (latch k (cutTo now .locked c))
  | faulted (c : RailChan) (now : Uptime) (k : FaultKind) (h : c.state.active = true) (hk : k ≠ .backfeed)
      (hr : c.cfg.response = .retry) (hl : c.retries < c.cfg.retryLimit) : RailEdit c (latch k (cutTo now .faulted c))
  | toLowering (c : RailChan) (t : Option Timer) (h : c.state.active = true) :
      RailEdit c { cancelActiveTimers c with state := .lowering, en := false, dis := true, dischargeT := t }
  | lowered (c : RailChan) (h : c.state = .lowering) : RailEdit c (offChannel c)
  | cleared (c : RailChan) : RailEdit c (offChannel { c with latched := 0, firstKind := none })
  | raised (c : RailChan) (now : Uptime) (h : c.state = .off) : RailEdit c (rampingChannel now { c with retries := 0 })
  | retried (c : RailChan) (now : Uptime) (h : c.state = .faulted) :
      RailEdit c (rampingChannel now { c with retries := c.retries + 1, latched := 0, firstKind := none })
  | deferred (c : RailChan) (now : Uptime) (h : c.state = .faulted) (ht : c.retryT ≠ none) : RailEdit c (startRetry now c)
  | discharged (c : RailChan) (now : Uptime) (h : c.discharging = true) : RailEdit c (endDischarge now c)
  | recharged (c : RailChan) (now : Uptime) (h : c.state = .faulted) : RailEdit c (beginDischarge now { c with retryT := none })
  | dischargeOut (c : RailChan) (h : c.state = .lowering ∨ c.state = .locked) : RailEdit c (dischargedOut c)
  | dischargeOutFaulted (c : RailChan) (h : c.state = .faulted) (ht : c.dischargeT ≠ none) : RailEdit c (dischargedOut c)
  | killed (c : RailChan) (h : c.state = .faulted) : RailEdit c { c with state := .locked, retryT := none }
  | written (c : RailChan) (cfg : RailCfg) (h : c.state = .off ∨ c.state = .unused) : RailEdit c (writtenChannel cfg c)
  | reset (c : RailChan) (z : Zone) (b : Bool) (mv ma : Nat) : RailEdit c (RailChan.atReset z b mv ma)

/-- A sequence of edits. -/
abbrev RailEdits : RailChan → RailChan → Prop := Relation.ReflTransGen RailEdit

/-- A law that each edit keeps is kept by a sequence of edits. -/
theorem RailEdits.keeps {a b : RailChan} (h : RailEdits a b) (P : RailChan → Prop) (hP : ∀ x y, RailEdit x y → P x → P y)
    (ha : P a) : P b := by
  induction h with
  | refl => exact ha
  | tail _ hm ih => exact hP _ _ hm ih

theorem RailEdit.edits {a b : RailChan} (h : RailEdit a b) : RailEdits a b := .single h

/-! ### Declarations and filters -/

theorem disarm_edits (k : FaultKind) (c : RailChan) : RailEdits c (disarm k c) := by
  cases k
  case ov => exact (RailEdit.arms c false c.armUv c.armOc c.armExt c.armBackfeed).edits
  case uv => exact (RailEdit.arms c c.armOv false c.armOc c.armExt c.armBackfeed).edits
  case oc => exact (RailEdit.arms c c.armOv c.armUv false c.armExt c.armBackfeed).edits
  case ext => exact (RailEdit.arms c c.armOv c.armUv c.armOc false c.armBackfeed).edits
  all_goals exact .refl

theorem declareOwn_edits (now : Uptime) (k : FaultKind) (e : RailStep) (h : e.rc.state.active = true) (hk : k ≠ .backfeed) :
    RailEdits e.rc (declareOwn now k e).rc := by
  unfold declareOwn; split
  · exact disarm_edits k e.rc
  · show RailEdits e.rc (latch k (cutTo now (cutState e.rc) e.rc))
    unfold cutState; split
    · rename_i h2; exact (RailEdit.faulted e.rc now k h hk h2.1 h2.2).edits
    · exact (RailEdit.locked e.rc now k h hk).edits

theorem startUv_edits (now : Uptime) (e : RailStep) (h : e.rc.state = .on) : RailEdits e.rc (startUv now e).rc := by
  unfold startUv; split
  · split
    · exact declareOwn_edits now .uv e (by rw [h]; rfl) (by decide)
    · exact (RailEdit.uv e.rc _ h).edits
  · exact .refl

theorem startOc_edits (now : Uptime) (e : RailStep) (h : e.rc.state.active = true) : RailEdits e.rc (startOc now e).rc := by
  unfold startOc; split
  · split
    · exact declareOwn_edits now .oc e h (by decide)
    · exact (RailEdit.oc e.rc _ h).edits
  · exact .refl

theorem declareBackfeed_edits (e : RailStep) (h : e.rc.state = .off) : RailEdits e.rc (declareBackfeed e).rc :=
  (RailEdit.backfeed e.rc none h).edits.tail (RailEdit.arms _ e.rc.armOv e.rc.armUv e.rc.armOc e.rc.armExt false)

theorem startBackfeed_edits (now : Uptime) (e : RailStep) (h : e.rc.state = .off) : RailEdits e.rc (startBackfeed now e).rc := by
  unfold startBackfeed; split
  · split
    · exact declareBackfeed_edits e h
    · exact (RailEdit.backfeed e.rc _ h).edits
  · exact .refl

theorem declareExt_edits (now : Uptime) (e : RailStep) (h : e.rc.state.active = true) : RailEdits e.rc (declareExt now e).rc := by
  unfold declareExt; split
  · exact declareOwn_edits now .ext e h (by decide)
  · exact .refl

theorem declareOv_edits (now : Uptime) (e : RailStep) (h : e.rc.state.active = true) : RailEdits e.rc (declareOv now e).rc := by
  unfold declareOv; split
  · exact declareOwn_edits now .ov e h (by decide)
  · exact .refl

/-! ### Entries -/

theorem judgeOff_edits (now : Uptime) (e : RailStep) (h : e.rc.state = .off) : RailEdits e.rc (judgeOff now e).rc := by
  unfold judgeOff; split
  · exact .refl
  · exact startBackfeed_edits now e h

theorem enterOff_edits_of_lowering (now : Uptime) (e : RailStep) (h : e.rc.state = .lowering) :
    RailEdits e.rc (enterOff now e).rc :=
  (RailEdit.lowered e.rc h).edits.trans (judgeOff_edits now (e.move (offChannel e.rc)) rfl)

theorem enterOn_edits (e : RailStep) (h : e.rc.state = .ramping) : RailEdits e.rc (enterOn e).rc := (RailEdit.toOn e.rc h).edits

theorem enterLowering_edits (now : Uptime) (e : RailStep) (h : e.rc.state.active = true) :
    RailEdits e.rc (enterLowering now e).rc := by
  have h1 := (RailEdit.toLowering e.rc (startTimer now (10 * e.rc.cfg.dischargeLimit)) h).edits
  simp only [enterLowering]; split
  · exact h1.trans (enterOff_edits_of_lowering now (e.move _) rfl)
  · exact h1

theorem railClear_edits (now : Uptime) (e : RailStep) : RailEdits e.rc (railClear now e).rc :=
  (RailEdit.cleared e.rc).edits.trans
    (judgeOff_edits now ((e.withRc { e.rc with latched := 0, firstKind := none }).move (offChannel _)) rfl)

/-- The settle timer that stood before a zone is judged in RAMPING does not matter. -/
theorem judgeRamping_settle (now : Uptime) (e : RailStep) :
    (judgeRamping now e).rc = (judgeRamping now (e.withRc { e.rc with settleT := none })).rc := by
  cases hz : e.rc.zone
  · simp only [judgeRamping, RailStep.withRc, hz]
  · simp only [judgeRamping, RailStep.withRc, hz]
  · by_cases hs : e.rc.cfg.settleTime = 0
    · simp only [judgeRamping, RailStep.withRc, hz, hs, enterOn, RailStep.move, if_true]
    · simp only [judgeRamping, RailStep.withRc, hz, hs, if_false]
  · simp only [judgeRamping, RailStep.withRc, hz]

theorem judgeRamping_edits (now : Uptime) (e : RailStep) (h : e.rc.state = .ramping) : RailEdits e.rc (judgeRamping now e).rc := by
  have h1 : RailEdits e.rc { e.rc with settleT := none } := (RailEdit.settle e.rc none h (fun x => absurd rfl x)).edits
  unfold judgeRamping
  cases hz : e.rc.zone with
  | good =>
    simp only
    split
    · exact enterOn_edits e h
    · exact (RailEdit.settle e.rc _ h (fun _ => hz)).edits
  | high => exact h1.trans (declareOv_edits now (e.withRc { e.rc with settleT := none }) (by simp [RailStep.withRc, h, RailState.active]))
  | low => exact h1
  | zero => exact h1

theorem judgeOn_edits (now : Uptime) (e : RailStep) (h : e.rc.state = .on) : RailEdits e.rc (judgeOn now e).rc := by
  have h1 := (RailEdit.uv e.rc none h).edits
  unfold judgeOn
  split
  · exact h1
  · exact h1.trans (declareOv_edits now (e.withRc { e.rc with uvT := none }) (by simp [RailStep.withRc, h, RailState.active]))
  · exact startUv_edits now e h
  · exact startUv_edits now e h

theorem judgeFlagAtEntry_edits (now : Uptime) (e : RailStep) : RailEdits e.rc (judgeFlagAtEntry now e).rc := by
  unfold judgeFlagAtEntry; split
  · rename_i h; exact startOc_edits now e h.1
  · exact .refl

theorem judgeInputAtEntry_edits (now : Uptime) (xf : Bool) (e : RailStep) : RailEdits e.rc (judgeInputAtEntry now xf e).rc := by
  unfold judgeInputAtEntry; split
  · rename_i h; exact declareExt_edits now e h.1
  · exact .refl

/-- The judgements of an entry into RAMPING (R17, R40). -/
theorem enterRamping_edits (now : Uptime) (xf : Bool) (e : RailStep) :
    RailEdits (rampingChannel now e.rc) (enterRamping now xf e).rc :=
  ((judgeRamping_edits now (e.move (rampingChannel now e.rc)) rfl).trans (judgeFlagAtEntry_edits now _)).trans
    (judgeInputAtEntry_edits now xf _)

/-! ### Arrivals -/

theorem judgeCut_edits (now : Uptime) (e : RailStep) : RailEdits e.rc (judgeCut now e).rc := by
  unfold judgeCut; split
  · rename_i hd; split
    · exact (RailEdit.discharged e.rc now hd).edits
    · exact .refl
  · split
    · rename_i h; exact (RailEdit.recharged e.rc now h.1).edits
    · exact .refl

theorem arriveOff_edits (now : Uptime) (e : RailStep) (h : e.rc.state = .off) : RailEdits e.rc (arriveOff now e).rc := by
  unfold arriveOff; split
  · exact (RailEdit.backfeed e.rc none h).edits.tail (RailEdit.arms _ e.rc.armOv e.rc.armUv e.rc.armOc e.rc.armExt true)
  · exact startBackfeed_edits now e h

theorem rearm_edits (c : RailChan) : RailEdits c (rearmByZone c) :=
  (RailEdit.arms c _ _ c.armOc c.armExt c.armBackfeed).edits

/-- A zone arrival, the channel already holding the new zone and, in RAMPING, any settle timer. -/
theorem railZoneArrival_edits (now : Uptime) (e : RailStep) : RailEdits e.rc (railZoneArrival now e).rc := by
  unfold railZoneArrival
  split
  · exact .refl
  · rename_i h; exact arriveOff_edits now e h
  · rename_i h; exact (rearm_edits e.rc).trans (judgeRamping_edits now (e.withRc (rearmByZone e.rc)) h)
  · rename_i h; exact (rearm_edits e.rc).trans (judgeOn_edits now (e.withRc (rearmByZone e.rc)) h)
  · rename_i h
    unfold judgeLowering; split
    · exact enterOff_edits_of_lowering now e h
    · exact .refl
  · exact judgeCut_edits now e
  · exact judgeCut_edits now e

/-- A zone taken and judged (R28). -/
theorem arriveZone_edits (now : Uptime) (z : Zone) (e : RailStep) : RailEdits e.rc (arriveZone now z e).rc := by
  unfold arriveZone
  by_cases h : e.rc.state = .ramping
  · have h1 : RailEdits e.rc { e.rc with settleT := none, zone := z } :=
      (RailEdit.settle e.rc none h (fun x => absurd rfl x)).edits.tail (RailEdit.view _ z (fun _ => rfl))
    have h2 := railZoneArrival_edits now (e.withRc { e.rc with settleT := none, zone := z })
    have h3 : (railZoneArrival now (e.withRc { e.rc with zone := z })).rc
        = (railZoneArrival now (e.withRc { e.rc with settleT := none, zone := z })).rc := by
      simp only [railZoneArrival, RailStep.withRc, h]
      rw [judgeRamping_settle]; rfl
    rw [h3]
    exact h1.trans h2
  · exact (RailEdit.view e.rc z (fun x => absurd x h)).edits.trans (railZoneArrival_edits now (e.withRc { e.rc with zone := z }))

theorem takeZone_edits (now : Uptime) (z : Zone) (e : RailStep) : RailEdits e.rc (takeZone now z e).rc :=
  (RailEdit.bands e.rc _).edits.trans (arriveZone_edits now z (e.withRc (e.rc.noteZone z)))

theorem arriveFlag_edits (now : Uptime) (b : Bool) (c : RailChan) : RailEdits c (arriveFlag now b (RailStep.of c)).rc := by
  have h1 := (RailEdit.flag c b).edits
  unfold arriveFlag railOverCurrent
  split
  · rename_i ha
    split
    · exact h1.trans (startOc_edits now ((RailStep.of c).withRc { c with overCurrent := b }) ha)
    · exact (h1.tail (RailEdit.oc _ none ha)).tail (RailEdit.arms _ c.armOv c.armUv true c.armExt c.armBackfeed)
  · exact h1

theorem takeFlag_edits (now : Uptime) (b : Bool) (c : RailChan) : RailEdits c (takeFlag now b (RailStep.of c)).rc :=
  (RailEdit.bands c _).edits.trans (arriveFlag_edits now b (c.noteFlag b))

/-! ### WRITE_RAIL -/

theorem comparedAfresh_edits (now : Uptime) (z : Zone) (b : Bool) (e : RailStep) (h : e.rc.state = .off ∨ e.rc.state = .unused) :
    RailEdits e.rc (comparedAfresh now z b e).rc := by
  unfold comparedAfresh; split
  · exact (RailEdit.flag e.rc b).edits
  · have h1 : RailEdits e.rc { e.rc with zone := z, overCurrent := b } :=
      (RailEdit.view e.rc z (fun x => by rcases h with h | h <;> rw [h] at x <;> cases x)).edits.tail (RailEdit.flag _ b)
    exact h1.trans (railZoneArrival_edits now (e.withRc { e.rc with zone := z, overCurrent := b }))

theorem writtenArrival_edits (now : Uptime) (z : Zone) (b : Bool) (e : RailStep) (h : e.rc.state = .off ∨ e.rc.state = .unused) :
    RailEdits e.rc (writtenArrival now z b e).rc :=
  ((RailEdit.bands e.rc _).edits.tail (RailEdit.bands (e.rc.noteZone z) _)).trans
    (comparedAfresh_edits now z b (e.withRc ((e.rc.noteZone z).noteFlag b)) h)

theorem writtenJudge_edits (now : Uptime) (e : RailStep) : RailEdits e.rc (writtenJudge now e).rc := by
  unfold writtenJudge; split
  · rename_i h
    exact (RailEdit.arms e.rc e.rc.armOv e.rc.armUv e.rc.armOc e.rc.armExt true).edits.trans
      (judgeOff_edits now (e.withRc { e.rc with armBackfeed := true }) h.1)
  · exact .refl

theorem railWrite_edits (now : Uptime) (cfg : RailCfg) (z : Zone) (b : Bool) (e : RailStep)
    (h : e.rc.state = .off ∨ e.rc.state = .unused) : RailEdits e.rc (railWrite now cfg z b e).rc := by
  have h1 := (RailEdit.written e.rc cfg h).edits
  have hs : (writtenChannel cfg e.rc).state = .off ∨ (writtenChannel cfg e.rc).state = .unused := by
    simp only [writtenChannel]; split
    · exact .inl rfl
    · exact .inr rfl
  exact (h1.trans (writtenArrival_edits now z b (e.withRc (writtenChannel cfg e.rc)) hs)).trans (writtenJudge_edits now _)

/-! ### Every event -/

theorem RailAct.edits {a b : RailChan} (h : RailAct a b) : RailEdits a b := by
  cases h with
  | raise now xf _ hs hz => exact (RailEdit.raised a now hs).edits.trans (enterRamping_edits now xf ((RailStep.of a).withRc { a with retries := 0 }))
  | lower now _ hs => exact enterLowering_edits now (RailStep.of a) hs
  | clear now _ hs hz => exact railClear_edits now (RailStep.of a)
  | cascade now _ hs => exact (RailEdit.locked a now .cascade hs (by decide)).edits

/-- Every rail event is a sequence of edits. -/
theorem RailEvent.edits {a b : RailChan} (h : RailEvent a b) : RailEdits a b := by
  cases h with
  | act h => exact h.edits
  | senseVoltage _ mv => exact (RailEdit.sense a mv a.senseMa).edits
  | senseCurrent _ ma => exact (RailEdit.sense a a.senseMv ma).edits
  | note _ b => exact (RailEdit.bands a b).edits
  | zone now z => exact takeZone_edits now z (RailStep.of a)
  | flag now b => exact takeFlag_edits now b a
  | xfAssert now =>
    unfold railXfAssert; split
    · rename_i h; exact declareExt_edits now (RailStep.of a) h
    · exact .refl
  | xfDeassert =>
    unfold railXfDeassert; split
    · exact (RailEdit.arms a a.armOv a.armUv a.armOc true a.armBackfeed).edits
    · exact .refl
  | ramp now =>
    unfold railRampExpiry; split
    · rename_i h
      exact (RailEdit.rampOut a h.1).edits.trans
        (declareOwn_edits now .rampTimeout ((RailStep.of a).withRc { a with rampT := none })
          (by have h1 : a.state = .ramping := h.1
              simp [RailStep.withRc, h1, RailState.active]) (by decide))
    · exact .refl
  | settle =>
    unfold railSettleExpiry; split
    · rename_i h; exact enterOn_edits (RailStep.of a) h.1
    · exact .refl
  | discharge =>
    unfold railDischargeExpiry; split
    · exact .refl
    · rename_i ht
      split
      · rename_i h; exact (RailEdit.dischargeOut a (.inl h)).edits
      · rename_i h; exact (RailEdit.dischargeOutFaulted a h ht).edits
      · rename_i h; exact (RailEdit.dischargeOut a (.inr h)).edits
      · exact .refl
  | backfeed =>
    unfold railBackfeedExpiry; split
    · rename_i h; exact declareBackfeed_edits (RailStep.of a) h.1
    · exact .refl
  | uv now =>
    unfold railUvExpiry; split
    · rename_i h
      have h1 : a.state = .on := h.1
      exact (RailEdit.uv a none h1).edits.trans
        (declareOwn_edits now .uv ((RailStep.of a).withRc { a with uvT := none }) (by simp [RailStep.withRc, h1, RailState.active])
          (by decide))
    · exact .refl
  | oc now =>
    unfold railOcExpiry; split
    · rename_i h
      exact (RailEdit.oc a none h.1).edits.trans
        (declareOwn_edits now .oc ((RailStep.of a).withRc { a with ocT := none }) h.1 (by decide))
    · exact .refl
  | retry now xf on kill =>
    unfold railRetryExpiry; split
    · rename_i h
      split
      · exact (RailEdit.retried a now h.1).edits.trans (enterRamping_edits now xf
          ((RailStep.of a).withRc { a with retries := a.retries + 1, latched := 0, firstKind := none }))
      · exact (RailEdit.deferred a now h.1 h.2).edits
    · exact .refl
  | kill now =>
    unfold railKill; split
    · rename_i h; exact enterLowering_edits now (RailStep.of a) (by rw [h]; rfl)
    · rename_i h; exact enterLowering_edits now (RailStep.of a) (by rw [h]; rfl)
    · rename_i h; exact (RailEdit.killed a h).edits
    · exact .refl
  | write now cfg z b _ hs => exact railWrite_edits now cfg z b (RailStep.of a) hs
  | reset z b mv ma => exact (RailEdit.reset a z b mv ma).edits

/-- A law of rails that each edit keeps is kept by every step of the part. -/
theorem step_keeps_rail_law (P : RailChan → Prop) (hP : ∀ x y, RailEdit x y → P x → P y) {s t : State} (h : step s = .next t)
    (hs : s.everyRail P) : t.everyRail P :=
  step_everyRail P (fun _ _ he => he.edits.keeps P hP) h hs

end Sys2Proof.Machine
end

