-- ==== Sys2Proof/Tests/Slice0.lean ====
section
/-! SUPPORT. Tests: the well-formedness smoke, single steps taken from the spec's worked examples and tables, and for every statement a named theorem
that shows a concrete state and operands which meet its hypotheses together, clause by clause. -/

namespace Sys2Proof.Tests

open Sys2Proof.Machine

/-! ### Well-formedness -/

/-- 01h is RAISE, so it is no code of BAD_COMMAND (spec/10, Commands). -/
theorem test_wf_refuses_command_code : (Instr.badCommand 0x01).wf = false := by decide
/-- "The code 0 names no command" (R177). -/
theorem test_wf_takes_code_zero : (Instr.badCommand 0x00).wf = true := by decide
/-- A write to EVT (02h) is a row of its own. -/
theorem test_wf_refuses_evt_address : (Instr.registerWrite 0x02 0).wf = false := by decide
/-- TPTR (1Ah) has no row of its own. -/
theorem test_wf_takes_tptr_address : (Instr.registerWrite 0x1A 0).wf = true := by decide
/-- The voltage sense range ends at 20000 mV (spec/09, ratings). -/
theorem test_wf_refuses_voltage : (Instr.zoneArrival 0 .high 20001).wf = false ∧ (Instr.zoneArrival 0 .high 20000).wf = true := by decide
/-- The current sense range ends at 25500 mA (spec/09, ratings). -/
theorem test_wf_refuses_current :
    (Instr.overCurrentArrival 0 true 25501).wf = false ∧ (Instr.overCurrentArrival 0 true 25500).wf = true := by decide

/-! ### Small states -/

/-- The reset record with used = yes. -/
def used : RailCfg := { RailCfg.reset with used := true }

/-- A rail in a state and a zone, with the outputs that R9 gives and no timer. -/
def chan (st : RailState) (z : Zone) (c : RailCfg) : RailChan :=
  { RailChan.atReset z false 0 0 with cfg := c, state := st, en := st.active, dis := st == .lowering }

/-- The reset state with some rails replaced and the four operands set. -/
def board (l : List (Rail × RailChan)) (a0 : Byte := 0) (a1 : Byte := 0) (a2 : Byte := 0) (a3 : Byte := 0) : State :=
  l.foldl (fun s x => s.setRail x.1 x.2)
    { State.reset with bus := { HostBus.reset with arg0 := a0, arg1 := a1, arg2 := a2, arg3 := a3 } }

/-- A step slot that holds some steps. -/
def slotOf (l : List (List Byte)) : Vector Byte 64 := Vector.ofFn (fun i => (l.flatten[i.val]?).getD 0)

/-- A READY plan. -/
def planOfSteps (l : List (List Byte)) (quiet : Nat := 0) (unwind : Option PlanNo := none) : Plan where
  state := .ready
  length := l.length
  unwind := unwind
  quiet := quiet
  slot := slotOf l

/-- A PAUSE of 50 ms. -/
def pause : List Byte := [6, 0, 5, 0]

/-- A run of a plan at a step. -/
def runAt (phase : Phase) (p : PlanNo) (step : StepNo) (role : Role := .normal) : Run where
  phase := phase
  plan := p
  role := role
  origin := .host
  tag := some 40
  step := step
  selection := 0
  failedPlan := none
  failingStep := none

/-- The state with KILL# asserted. -/
def killed (s : State) : State := { s with pins := { s.pins with kill := true } }

/-- The outcome's state read by a test, the state before where there is none. -/
def after (c : Instr) (s : State) : State :=
  match exec c s with
  | .next t => t
  | _ => s

/-! ### Single steps from the spec's examples -/

/-- Spec/01, one rail ramping, 0 ms: RAISE 3 is ACCEPTED, EN goes on and the ramp timer starts with 20 ms. -/
theorem test_raise_starts_ramp :
    ((after .raise (board [(3, chan .off .zero used)] 3)).rail 3).rampT = some { interval := 20, startedAt := 0 }
      ∧ ((after .raise (board [(3, chan .off .zero used)] 3)).rail 3).en = true := by decide

/-- Spec/01, 6 ms: a GOOD arrival starts the settle timer with 5 ms. -/
theorem test_good_starts_settle :
    ((after (.zoneArrival 3 .good 3300) (board [(3, chan .ramping .low used)])).rail 3).settleT
      = some { interval := 5, startedAt := 0 } := by decide

/-- Spec/01, one rail lowering, 0 ms: LOWER 5 starts the discharge timer with 200 ms. -/
theorem test_lower_starts_discharge :
    ((after .lower (board [(5, chan .on .good used)] 5)).rail 5).dischargeT = some { interval := 200, startedAt := 0 } := by decide

/-- Spec/02, over-current with retry, 264 ms: count 2 equals limit 2 and the zone is ZERO, so the rail is LOCKED with DIS off. -/
theorem test_last_retry_locks :
    ((after (.ocFilterExpiry 4) (board [(4, { chan .ramping .zero { used with response := .retry, retryLimit := 2 } with
        retries := 2, ocT := some { interval := 2, startedAt := 0 } })])).rail 4).state = .locked
      ∧ ((after (.ocFilterExpiry 4) (board [(4, { chan .ramping .zero { used with response := .retry, retryLimit := 2 } with
        retries := 2, ocT := some { interval := 2, startedAt := 0 } })])).rail 4).dis = false := by decide

/-- Spec/03, a group of three rails, first line: RAISE_GROUP 2, 0Eh over a chain of OFF rails gives PARTIAL with RDET 2. -/
theorem test_raise_group_partial :
    ((after .raiseGroup (board [(8, chan .off .zero { used with tag := 2 }), (9, chan .off .zero { used with tag := 2, parentA := some 8 }),
        (10, chan .off .zero { used with tag := 3, parentA := some 9 })] 2 0x0E)).bus.res,
     (after .raiseGroup (board [(8, chan .off .zero { used with tag := 2 }), (9, chan .off .zero { used with tag := 2, parentA := some 8 }),
        (10, chan .off .zero { used with tag := 3, parentA := some 9 })] 2 0x0E)).bus.rdet) = (0x03, 2) := by decide

/-- Spec/03, a cascade through four rails: rail 3, whose parents 0 and 2 both lock, records cause rail 0. -/
theorem test_cascade_cause_rail :
    (after (.ocFilterExpiry 0) (board [(0, { chan .on .good used with ocT := some { interval := 2, startedAt := 0 } }),
        (1, chan .on .good { used with parentA := some 0 }), (2, chan .on .good { used with parentA := some 1 }),
        (3, chan .on .good { used with parentA := some 0, parentB := some 2 })])).log.records.map (fun x => x.subject)
      = [.rail 0 .oc .on none, .rail 1 .cascade .on (some 0), .rail 2 .cascade .on (some 1), .rail 3 .cascade .on (some 0)] := by decide

/-- Spec/05, a bring-up run with a hold, 0 ms: RUN 2 into an IDLE engine enters QUIET with RDET 0. -/
theorem test_run_enters_quiet :
    ((after .run ((board [] 2 40).setPlan 2 (planOfSteps [pause] 10))).engine.run.map (fun x => (x.phase, x.tag))) = some (.quiet, some 40)
      ∧ (after .run ((board [] 2 40).setPlan 2 (planOfSteps [pause] 10))).bus.rdet = 0 := by decide

/-- Spec/10, reading a log record: the cascade record of rail 4 at 2500 ms. -/
theorem test_log_record_bytes :
    logBytes { subject := .rail 4 .cascade .ramping (some 1), seen := 0x80, repeats := 1, firstTime := 2500, lastTime := 2500
               context := some { plan := 2, step := some 3 } }
      = [0x04, 0x08, 0x80, 0x01, 0xC4, 0x09, 0, 0, 0xC4, 0x09, 0, 0, 0x02, 0x01, 0x02, 0x03] := by decide

/-- Spec/09, a command and a status read: a write of 08h with code 0 is refused with BAD_COMMAND. -/
theorem test_code_zero_refused : (after (.badCommand 0) (board [])).bus.res = 0x10 := by decide

/-- Spec/11, sequence 4, 150 ms: SHED_ACK with KILL# asserted is refused with SHED_ACTIVE, RDET 16. -/
theorem test_shed_ack_under_kill :
    ((after .shedAck (killed (setShed (board [])))).bus.res, (after .shedAck (killed (setShed (board [])))).bus.rdet) = (0x3C, 16) := by decide

/-- Spec/10, status record: LOCKED (6), zone LOW (1) with the discharge phase (bit 3), OC latched first, retry count 2. -/
theorem test_status_bytes :
    statusBytes { chan .locked .low used with discharging := true, latched := 0x04, firstKind := some .oc, retries := 2 }
      = [6, 0x09, 0x04, 3, 2, 0, 0, 0] := by decide

/-- Spec/04, defining a bring-up plan: an AWAIT_ON written with time 0 is a bad step, one with time 5 is not (R88). -/
theorem test_bad_step :
    (({ planOfSteps [[1, 0, 0, 0], [4, 0, 0, 0]] with state := .defining }).firstBad,
     ({ planOfSteps [[1, 0, 0, 0], [4, 0, 5, 0]] with state := .defining }).firstBad) = (some 1, none) := by decide

/-- R187: with good level 3000 mV (band 30 mV) a GOOD report at 2980 mV is not gone back on at 2975 mV, is at 2969 mV, and is at 2975 mV once the
voltage has been at 3031 mV. -/
theorem test_no_return_within_band :
    (let s := after (.zoneArrival 3 .good 2980) (board [(3, chan .ramping .low used)]);
      ((after (.zoneArrival 3 .low 2975) s).rail 3).zone = .good ∧ ((after (.zoneArrival 3 .low 2969) s).rail 3).zone = .low
        ∧ ((after (.zoneArrival 3 .low 2975) (after (.zoneArrival 3 .good 3031) s)).rail 3).zone = .low) := by decide

/-- R173: a read of ID drives A8h; with CS# deasserted, and with all three asserted, nothing is driven. -/
theorem test_bus_drive :
    busDrive true true false 0x00 (board []) = some 0xA8 ∧ busDrive false true false 0x00 (board []) = none
      ∧ busDrive true true true 0x00 (board []) = none := by decide

/-- R101, R113: a RAISE step of an UNUSED rail fails the run with STEP_REFUSED and the code STATE, and RES shows ACCEPTED for the RUN. -/
theorem test_step_refused :
    (let t := after .run ((board [] 7 40).setPlan 7 (planOfSteps [[1, 15, 0, 0]]));
      t.engine.report.map (fun x => (x.reason, x.refusal)) = some (.stepRefused, some .state) ∧ t.bus.res = 0x01) := by decide

/-! ### Witnesses: queue, reset, bus -/

theorem witness_StepRunsFrontCommand :
    ((board []).withPending [.raise, .lower]).pending = Instr.raise :: [.lower] ∧ (board []).pending = [] := ⟨rfl, rfl⟩

theorem witness_ResetWindowReads : (0x00 : Addr).toNat ≠ 0x14 ∧ (0x3F : Addr).toNat ≠ 0x14 := by decide

theorem witness_ResetsTakeResetValues :
    (board []).pins.inReset = false ∧ ((board []).setReset true).pins.inReset = true
      ∧ (killed (board [])).pins.inReset = false ∧ (killed (board [])).pins.kill = true
      ∧ outsideBands RailCfg.reset ((board []).rail 0).senseMv = true
      ∧ withinLimitBand RailCfg.reset ((board []).rail 0).senseMa = false := by decide

theorem witness_UptimeMovesByTickAndReset : ∃ t, (board []).pins.inReset = false ∧ exec .uptimeTick (board []) = .next t := ⟨_, rfl, rfl⟩

theorem witness_NoBusCycleInReset :
    ((board []).setReset true).pins.inReset = true ∧ rowOfRead 0x1B = some .tdataRead ∧ rowOfRead 0x20 = some .upt0Read
      ∧ rowOfRead 0x10 = some .engstLowRead := by decide

/-! ### Witnesses: laws -/

/-- A board with something up, something cut, a run, a queue entry and a record. -/
def busy : State :=
  recomputeFlt { board [(0, chan .on .good used), (1, chan .on .good { used with parentA := some 0 }),
          (2, { chan .locked .zero { used with shedMember := true } with latched := 4, firstKind := some .oc }),
          (3, { chan .faulted .zero { used with response := .retry, retryLimit := 1 } with
                 latched := 1, firstKind := some .ov, retryT := some { interval := 100, startedAt := 0 } })] with
    store := { plans := (PlanStore.reset.plans.set 1 (planOfSteps [pause])).set 2 { planOfSteps [pause] with state := .defining }
               defining := some 2 }
    engine := { Engine.reset with run := some (runAt .waiting 1 0) }
    requests := { RequestUnit.reset with queue := [{ plan := 1, origin := .host, tag := some 7 }] }
    log := { FaultLog.reset with
      records := [{ subject := .rail 2 .oc .on none, seen := 4, repeats := 1, firstTime := 0, lastTime := 0, context := none }] }
    notify := ({ Notify.reset with shed := true }).judge
    pending := [.zoneArrival 1 .high 5000] }

theorem witness_step_of_busy : ∃ t, step busy = .next t := ⟨_, rfl⟩

theorem witness_StepKeepsIntLaw : busy.intLaw := by unfold State.intLaw; decide

theorem witness_StepKeepsFltLaw : busy.fltLaw := by unfold State.fltLaw; decide

theorem witness_StepKeepsOutputs : busy.everyRail RailChan.outputsLaw := by
  unfold State.everyRail RailChan.outputsLaw; decide

theorem witness_StepKeepsRailLaws :
    busy.everyRail RailChan.timersLaw ∧ busy.everyRail RailChan.retryLaw ∧ busy.everyRail RailChan.latchedLaw := by
  unfold State.everyRail RailChan.timersLaw RailChan.retryLaw RailChan.latchedLaw; decide

theorem witness_StepKeepsParentsOn : busy.parentsBelow ∧ busy.parentsOn := by
  unfold State.parentsBelow State.parentsOn; decide

theorem witness_StepKeepsLogLaw : busy.logLaw := by
  refine ⟨by unfold FaultLog.oneEach; decide, fun x hx => ?_⟩
  obtain rfl : x = _ := List.mem_singleton.1 hx
  exact ⟨by decide, by decide, by decide, fun r k st cause h => by cases h⟩

theorem witness_StepKeepsShedLaw : busy.shedLaw := by unfold State.shedLaw; decide

theorem witness_StepKeepsStoreLaw : busy.storeLaw := by unfold State.storeLaw; decide

theorem witness_StepKeepsRunLaw : busy.runLaw := by
  refine ⟨by decide, by decide, by decide, fun q h => ?_, fun run h => ?_, fun q h => ?_, fun h => ?_⟩
  · exact absurd (show none = some q from h) (by simp)
  · obtain rfl : runAt .waiting 1 0 = run := Option.some.inj h
    decide
  · exact absurd (show none = some q from h) (by simp)
  · exact absurd (show some (runAt .waiting 1 0) = none from h) (by simp)

theorem witness_StepKeepsHeldLaw :
    ∃ s t, step s = .next t ∧ s.pins.inReset = true ∧ s.heldLaw :=
  ⟨(resetBlocks ((board []).setReset true)).withPending [.resetDeassertion], _, rfl, rfl, by
    intro _
    refine ⟨fun r => ?_, rfl, rfl, rfl, rfl, rfl, rfl⟩
    simp [resetBlocks, State.withPending, State.rail, resetRail, RailChan.atReset]⟩

theorem witness_StepKeepsKillLaw :
    ∃ s t, step s = .next t ∧ s.heldLaw ∧ s.pins.kill = true ∧ s.killLaw :=
  ⟨(killed (board [(0, chan .lowering .low used), (1, chan .locked .low used)])).withPending [.zoneArrival 0 .zero 0], _, rfl,
    fun h => absurd (show false = true from h) (by simp), rfl,
    fun _ => ⟨by decide, rfl, rfl, rfl⟩⟩

/-! ### Witnesses: single-rail commands -/

theorem witness_RefusedCommandChangesNothing :
    (∃ t, exec (rowOfCode Command.raise.code) (board [] 16) = .next t ∧ t.bus.res ≠ 0x01 ∧ t.bus.res ≠ 0x03)
      ∧ (Instr.badCommand 0x00).wf = true ∧ (Instr.badCommand 0xFF).wf = true ∧ (board []).pins.inReset = false :=
  ⟨⟨_, rfl, by decide, by decide⟩, by decide, by decide, rfl⟩

/-- The boundary rails 15 and 16, every state, a missing parent, a voltage, and KILL#. -/
theorem witness_RaiseAnswers :
    16 ≤ (board [] 16).bus.arg0.toNat
      ∧ (board [] 15).bus.arg0 = railByte 15 ∧ ((board [] 15).rail 15).state = .unused
      ∧ ((board [(15, chan .on .good used)] 15).rail 15).state = .on
      ∧ (let s := board [(1, chan .off .zero used), (15, chan .off .zero { used with parentA := some 0, parentB := some 1 }),
            (0, chan .on .good used)] 15;
          (s.rail 15).state = .off ∧ s.lowestParentNotOn 15 1)
      ∧ (let s := board [(15, chan .off .low used)] 15;
          (s.rail 15).state = .off ∧ s.allParentsOn 15 ∧ (s.rail 15).zone ≠ .zero)
      ∧ (let s := killed (board [(15, chan .off .zero used)] 15);
          s.bus.arg0 = railByte 15 ∧ (s.rail 15).state = .off ∧ s.allParentsOn 15 ∧ (s.rail 15).zone = .zero ∧ s.pins.kill = true) := by
  decide

theorem witness_RaiseEntersRamping :
    let s := board [(0, chan .on .good used), (15, chan .off .zero { used with parentA := some 0 })] 15;
    s.pins.inReset = false ∧ s.bus.arg0 = railByte 15 ∧ (s.rail 15).state = .off ∧ s.allParentsOn 15 ∧ (s.rail 15).zone = .zero
      ∧ s.pins.kill = false ∧ s.nothingStands 15 = true ∧ s.unawaited 15 = true := by decide

/-- An OFF rail that an AWAIT_OFF step in progress waits on, together with a LOWERING one. -/
theorem witness_RaiseEntersRamping_awaited :
    let s := ((board [(14, chan .lowering .good used), (15, chan .off .zero used)] 15).setPlan 1 (planOfSteps [[5, 15, 5, 0]])).setRun
      (some { runAt .waiting 1 0 with selection := 0xC000 });
    s.pins.inReset = false ∧ s.bus.arg0 = railByte 15 ∧ (s.rail 15).state = .off ∧ s.allParentsOn 15 ∧ (s.rail 15).zone = .zero
      ∧ s.pins.kill = false ∧ s.nothingStands 15 = true ∧ s.engine.run = some { runAt .waiting 1 0 with selection := 0xC000 }
      ∧ (s.stepRec (runAt .waiting 1 0) 0).kind = some .awaitOff ∧ RailSet.has 0xC000 15 = true ∧ s.noneWaiting = true
      ∧ (s.plan 1).unwind = none := by decide

theorem witness_RaiseMeetsStandingInput :
    let s := { board [(15, chan .off .zero { used with binding := some .xf0, detect := { used.detect with ext := true } })] 15 with
                 pins := { Pins.reset with xf0 := true } };
    s.pins.inReset = false ∧ s.bus.arg0 = railByte 15 ∧ (s.rail 15).state = .off ∧ s.allParentsOn 15 ∧ (s.rail 15).zone = .zero
      ∧ s.pins.kill = false ∧ (s.rail 15).overCurrent = false ∧ (s.rail 15).cfg.detect.ext = true ∧ s.boundAsserted 15 = true
      ∧ (s.rail 15).cfg.response ≠ .report ∧ (s.rail 15).cfg.faultPlan = none ∧ s.engine.run = none ∧ s.fltLaw ∧ s.parentsOn := by
  unfold State.fltLaw State.parentsOn; decide

theorem witness_LowerAnswersAndLowers :
    16 ≤ (board [] 16).bus.arg0.toNat
      ∧ ((board [] 15).rail 15).state = .unused ∧ (board [] 15).bus.arg0 = railByte 15
      ∧ ((board [(15, chan .off .zero used)] 15).rail 15).state = .off
      ∧ (let s := board [(0, chan .on .good used), (14, chan .ramping .low { used with parentA := some 0 }),
            (15, chan .on .good { used with parentA := some 0 })] 0;
          (s.rail 0).state = .on ∧ s.childActive 0 14 ∧ ∀ y : Rail, y < 14 → ¬ s.childActive 0 y)
      ∧ (let s := board [(15, chan .ramping .zero used)] 15;
          (s.rail 15).state = .ramping ∧ (∀ x : Rail, ¬ s.childActive 15 x) ∧ s.unawaited 15 = true) := by decide

/-- A RAMPING rail that an AWAIT_ON step in progress waits on. -/
theorem witness_LowerAnswersAndLowers_awaited :
    let s := ((board [(15, chan .ramping .zero used)] 15).setPlan 1 (planOfSteps [[4, 15, 5, 0]])).setRun
      (some { runAt .waiting 1 0 with selection := 0x8000 });
    s.bus.arg0 = railByte 15 ∧ (s.rail 15).state = .ramping ∧ (∀ x : Rail, ¬ s.childActive 15 x)
      ∧ s.engine.run = some { runAt .waiting 1 0 with selection := 0x8000 }
      ∧ (s.stepRec (runAt .waiting 1 0) 0).kind = some .awaitOn ∧ RailSet.has 0x8000 15 = true ∧ s.noneWaiting = true
      ∧ (s.plan 1).unwind = none := by decide

theorem witness_ClearAnswersAndClears :
    16 ≤ (board [] 16).bus.arg0.toNat
      ∧ ((board [] 15).rail 15).state = .unused ∧ (board [] 15).bus.arg0 = railByte 15
      ∧ ((board [(15, chan .off .zero used)] 15).rail 15).state = .off
      ∧ (let s := board [(15, { chan .locked .high used with latched := 0x05, overCurrent := true })] 15;
          (s.rail 15).state = .locked ∧ s.standing 15 = some .ov)
      ∧ (let s := board [(15, { chan .locked .low used with latched := 0x04 })] 15;
          (s.rail 15).state = .locked ∧ s.standing 15 = none ∧ (s.rail 15).zone ≠ .zero)
      ∧ (let s := board [(15, { chan .faulted .zero used with latched := 0x04 })] 15;
          (s.rail 15).state = .faulted ∧ s.standing 15 = none ∧ (s.rail 15).zone = .zero ∧ s.unawaited 15 = true) := by decide

/-! ### Witnesses: group commands -/

/-- The rails a target selects, as the statements write them (R67). -/
def sel (s : State) (tag mask : BitVec 4) : List Rail :=
  allRails.filter (fun r => (s.rail r).state != .unused && (s.rail r).cfg.tag &&& mask == tag &&& mask)

/-- The rails of a selection that a RAISE passes, and those it refuses. -/
def raiseSplit (s : State) (l : List Rail) : List Rail × List Rail :=
  (l.filter (fun r => (s.rail r).state == .off && (s.raiseRefusal r).isNone), l.filter (fun r => (s.raiseRefusal r).isSome))

theorem witness_RaiseGroupRaisesEach :
    16 ≤ (board [] 16).bus.arg0.toNat ∧ 16 ≤ (board [] 15 16).bus.arg1.toNat
      ∧ (board [] 15 15).bus.arg0 = (15#4).setWidth 8 ∧ (board [] 15 15).bus.arg1 = (15#4).setWidth 8 ∧ sel (board [] 15 15) 15 15 = []
      ∧ (let s := board [(9, chan .lowering .low used)] 0 15;
          sel s 0 15 = [9] ∧ raiseSplit s [9] = ([], [9]) ∧ s.raiseRefusal 9 = some .state)
      ∧ (let s := board [(8, chan .off .zero used), (9, chan .on .good used)] 0 15;
          sel s 0 15 = [8, 9] ∧ raiseSplit s [8, 9] = ([8], []) ∧ s.nothingStands 8 = true ∧ s.unawaited 8 = true)
      ∧ (let s := board [(8, chan .off .zero used), (9, chan .off .zero { used with parentA := some 8 })] 0 15;
          sel s 0 15 = [8, 9] ∧ raiseSplit s [8, 9] = ([8], [9]) ∧ s.nothingStands 8 = true ∧ s.unawaited 8 = true) := by decide

theorem witness_LowerGroupAllOrNothing :
    16 ≤ (board [] 16).bus.arg0.toNat ∧ 16 ≤ (board [] 15 16).bus.arg1.toNat ∧ sel (board [] 15 15) 15 15 = []
      ∧ (let s := board [(8, chan .off .zero used)] 0 15;
          sel s 0 15 = [8] ∧ [(8 : Rail)].filter (fun r => (s.rail r).state.active) = []) := by decide

theorem witness_LowerGroupAllOrNothing_refused :
    let s := board [(8, chan .on .good used), (10, chan .on .good { used with tag := 3, parentA := some 8 })] 0 15
    sel s 0 15 = [8] ∧ (10 : Rail) ∉ sel s 0 15 ∧ s.childActive 8 10
      ∧ ∀ y : Rail, y < 10 → y ∉ sel s 0 15 → ¬ s.childActive 8 y := by decide

theorem witness_LowerGroupAllOrNothing_lowered :
    let s := board [(8, chan .on .good used), (9, chan .on .good { used with parentA := some 8 })] 0 15
    sel s 0 15 = [8, 9] ∧ (sel s 0 15).filter (fun r => (s.rail r).state.active) = [8, 9]
      ∧ (∀ x : Rail, x ∉ sel s 0 15 → ¬ ∃ r ∈ [(8 : Rail), 9], s.childActive r x) ∧ ∀ r ∈ [(8 : Rail), 9], s.unawaited r = true := by decide

theorem witness_ClearGroupClearsEach :
    16 ≤ (board [] 16).bus.arg0.toNat ∧ 16 ≤ (board [] 15 16).bus.arg1.toNat ∧ sel (board [] 15 15) 15 15 = []
      ∧ (let s := board [(9, chan .on .good used)] 0 15;
          sel s 0 15 = [9] ∧ s.clearRefusal 9 = some .state)
      ∧ (let s := board [(8, chan .locked .zero used), (9, chan .off .zero used)] 0 15;
          sel s 0 15 = [8, 9] ∧ s.clearRefusal 8 = none ∧ s.clearRefusal 9 = none ∧ s.unawaited 8 = true)
      ∧ (let s := board [(8, chan .locked .zero used), (9, chan .locked .low used)] 0 15;
          sel s 0 15 = [8, 9] ∧ s.clearRefusal 8 = none ∧ s.clearRefusal 9 = some .notDischarged ∧ s.unawaited 8 = true) := by decide

/-! ### Witnesses: configuration -/

/-- The reset record's bytes with used = yes. -/
def recordBytesUsed : Vector Byte 20 := encodeCfg used

/-- A board with bytes in the staging buffer. -/
def staged (s : State) (v : Vector Byte 20) : State := s.setStaging v

theorem witness_LoadRailCopiesRecord :
    16 ≤ (board [] 16).bus.arg0.toNat ∧ (board [] 15).bus.arg0 = railByte 15 ∧ (board []).pins.inReset = false := by decide

/-- One staging buffer for each of the eight checks, and a parent in use. -/
theorem witness_WriteRailChecks :
    16 ≤ (board [] 16).bus.arg0.toNat ∧ (board [] 15).bus.arg0 = railByte 15
      ∧ ((board [(15, chan .locked .zero used)] 15).rail 15).state = .locked
      ∧ ((board [(15, chan .off .zero used)] 15).rail 15).state = .off
      ∧ ([(1, (recordBytesUsed.set 4 0).set 5 0), (2, (recordBytesUsed.set 6 0x2C).set 7 1), (3, recordBytesUsed.set 1 16),
           (4, recordBytesUsed.set 2 15), (5, recordBytesUsed.set 3 1), (6, recordBytesUsed.set 2 1), (7, recordBytesUsed.set 15 8),
           (8, recordBytesUsed.set 16 0x20)].all
          (fun x => (staged (board [(15, chan .off .zero used)] 15) x.2).checkFails 15 x.1
            && (List.range x.1).all (fun m => !(staged (board [(15, chan .off .zero used)] 15) x.2).checkFails 15 m))) = true
      ∧ (let s := staged (board [(0, chan .off .zero used), (15, chan .off .zero { used with parentA := some 0 })] 0) (recordBytesUsed.set 0 4);
          s.checksPass 0 = true ∧ s.bus.staging[0].getLsbD 0 = false ∧ 0 ∈ (s.rail 15).cfg.parents ∧ (s.rail 15).state ≠ .unused
            ∧ ∀ y : Rail, y < 15 → 0 ∈ (s.rail y).cfg.parents → (s.rail y).state = .unused) := by decide

theorem witness_WriteRailApplies :
    (let s := staged (board [] 15) recordBytesUsed;
      s.pins.inReset = false ∧ s.bus.arg0 = railByte 15 ∧ (s.rail 15).state = .unused ∧ s.checksPass 15 = true
        ∧ (decodeCfg s.bus.staging).used = true ∧ outsideBands (decodeCfg s.bus.staging) (s.rail 15).senseMv = true
        ∧ withinLimitBand (decodeCfg s.bus.staging) (s.rail 15).senseMa = false
        ∧ s.unawaited 15 = true
        ∧ ((decodeCfg s.bus.staging).detect.backfeed && (decodeCfg s.bus.staging).filterTime == 0
            && zoneOf (decodeCfg s.bus.staging) (s.rail 15).senseMv != .zero) = false)
      ∧ (let s := staged (board [(15, chan .off .zero used)] 15) (recordBytesUsed.set 0 4);
        (s.rail 15).state = .off ∧ s.checksPass 15 = true ∧ (decodeCfg s.bus.staging).used = false
          ∧ ∀ x : Rail, 15 ∈ (s.rail x).cfg.parents → (s.rail x).state = .unused) := by decide

theorem witness_RecordBytesRoundTrip :
    fieldUndefined recordBytesUsed = false
      ∧ used.offLevel ≤ 20000 ∧ used.goodLevel ≤ 20000 ∧ used.overLevel ≤ 20000 ∧ 1 ≤ used.currentLimit ∧ used.currentLimit ≤ 255
      ∧ 1 ≤ used.rampLimit ∧ used.rampLimit ≤ 255 ∧ used.settleTime ≤ 255 ∧ 1 ≤ used.dischargeLimit ∧ used.dischargeLimit ≤ 255
      ∧ used.filterTime ≤ 15 ∧ used.retryLimit ≤ 7 ∧ 1 ≤ used.retryInterval ∧ used.retryInterval ≤ 255 := by decide

/-! ### Witnesses: plans -/

/-- A board with a run of plan 1, plan 2 queued and plan 3 in the slot. -/
def inUse (a0 : Byte) : State :=
  { board [] a0 1 0xFF with
    engine := { Engine.reset with run := some (runAt .waiting 1 0 .urgent) }
    requests := { RequestUnit.reset with queue := [{ plan := 2, origin := .pin, tag := none }], slot := some { plan := 3, rail := 0 } } }

theorem witness_DefineAndErase :
    8 ≤ (board [] 8).bus.arg0.toNat ∧ (board [] 7 0).bus.arg1 = 0 ∧ 16 < (board [] 7 17).bus.arg1.toNat
      ∧ (8 ≤ (board [] 7 16 8).bus.arg2.toNat ∧ (board [] 7 16 8).bus.arg2 ≠ 0xFF) ∧ (board [] 7 16 7).bus.arg2 = (board [] 7 16 7).bus.arg0
      ∧ (let s := board [] 7 16 0xFF;
          s.bus.arg0 = byte (7 : PlanNo).val ∧ 1 ≤ s.bus.arg1.toNat ∧ s.bus.arg1.toNat ≤ 16 ∧ s.bus.arg2 = absentFF (none : Option PlanNo)
            ∧ (∀ n ∈ [1, 2, 3], s.usedAt 7 n = false) ∧ s.store.defining = none ∧ (s.plan 7).state = .empty)
      ∧ ((inUse 1).usedAt 1 1 = true ∧ (inUse 2).usedAt 2 2 = true ∧ (∀ m ∈ List.range 2, (inUse 2).usedAt 2 m = false)
          ∧ (inUse 3).usedAt 3 3 = true ∧ ∀ m ∈ List.range 3, (inUse 3).usedAt 3 m = false)
      ∧ (busy.store.defining = some 2 ∧ (2 : PlanNo) ≠ 7 ∧ (∀ n ∈ [1, 2, 3], busy.usedAt 7 n = false))
      ∧ ((busy.plan 2).state ≠ .empty ∧ ∀ n ∈ [1, 2, 3], busy.usedAt 2 n = false)
      ∧ (let s := (board [] 7).setPlan 7 (planOfSteps [pause]);
          (s.plan 7).state ≠ .empty ∧ s.store.defining ≠ some 7 ∧ ∀ n ∈ [1, 2, 3], s.usedAt 7 n = false) := by decide

/-- A board whose plan 7 is DEFINING with some steps and a write count. -/
def defining (l : List (List Byte)) (count : Byte) : State :=
  (((board []).setPlan 7 { planOfSteps l with state := .defining }).setDefining (some 7)).setWriteCount count

theorem witness_CommitChecksAndReadies :
    (board []).store.defining = none
      ∧ (defining [pause] 3).store.defining = some 7
      ∧ (defining [pause] 3).bus.writeCount.toNat ≠ 4 * ((defining [pause] 3).plan 7).length
      ∧ (defining [pause, [6, 0, 0, 0]] 8).bus.writeCount.toNat = 4 * ((defining [pause, [6, 0, 0, 0]] 8).plan 7).length
      ∧ badStepBytes (((defining [pause, [6, 0, 0, 0]] 8).plan 7).slotByte 4) (((defining [pause, [6, 0, 0, 0]] 8).plan 7).slotByte 5)
          (((defining [pause, [6, 0, 0, 0]] 8).plan 7).slotByte 6) = true
      ∧ badStepBytes (((defining [pause, [6, 0, 0, 0]] 8).plan 7).slotByte 0) (((defining [pause, [6, 0, 0, 0]] 8).plan 7).slotByte 1)
          (((defining [pause, [6, 0, 0, 0]] 8).plan 7).slotByte 2) = false
      ∧ badStepBytes 1 15 0 = false ∧ badStepBytes 1 16 0 = true ∧ badStepBytes 7 16 0 = false ∧ badStepBytes 8 0 0 = true := by decide

/-! ### Witnesses: runs -/

/-- A board with READY plans 0 to 7, each of one PAUSE with a quiet interval. -/
def ready (s : State) (quiet : Nat) : State := { s with store := { s.store with plans := Vector.replicate 8 (planOfSteps [pause, pause] quiet) } }

/-- The queue filled with the given plans. -/
def queued (s : State) (l : List PlanNo) : State := s.setQueue (l.map (fun p => { plan := p, origin := .host, tag := some 1 }))

theorem witness_RunAnswersAndQueues :
    8 ≤ (board [] 8).bus.arg0.toNat ∧ (board [] 7).bus.arg0 = byte (7 : PlanNo).val
      ∧ (killed (board [] 7)).pins.kill = true ∧ ((board [] 7).plan 7).state ≠ .ready
      ∧ (let s := queued (ready (board [] 7) 5) [1, 7];
          s.pins.kill = false ∧ (s.plan 7).state = .ready ∧ (s.requests.queue[1]?.map (fun e => e.plan)) = some 7
            ∧ ∀ e ∈ s.requests.queue.take 1, e.plan ≠ 7)
      ∧ (let s := queued (ready (board [] 7) 5) [0, 1, 2, 3];
          (∀ e ∈ s.requests.queue, e.plan ≠ 7) ∧ 4 ≤ s.requests.queue.length)
      ∧ (let s := (queued (ready (board [] 7) 5) [0, 1, 2]).setRun (some (runAt .waiting 1 0));
          (∀ e ∈ s.requests.queue, e.plan ≠ 7) ∧ s.requests.queue.length < 4 ∧ s.engine.run ≠ none) := by decide

theorem witness_RunStartsIdleEngine :
    (let s := ready (board [] 7) 5;
      s.pins.inReset = false ∧ s.bus.arg0 = byte (7 : PlanNo).val ∧ s.pins.kill = false ∧ (s.plan 7).state = .ready ∧ s.engine.run = none
        ∧ s.noneWaiting = true ∧ (s.plan 7).quiet ≠ 0)
      ∧ (let s := ready (board [] 7) 0;
        (s.plan 7).state = .ready ∧ (s.plan 7).quiet = 0 ∧ 0 < (s.plan 7).length ∧ s.noneWaiting = true) := by decide

/-- A board on which plan 7 consists of one step, and the run that starts it. -/
def stepBoard (l : List (Rail × RailChan)) (st : List Byte) : State := (board l 7).setPlan 7 (planOfSteps [st])

/-- The step that `stepBoard` starts. -/
def stepOf (s : State) : StepRec := s.stepRec (runAt .waiting 7 0) 0

/-- A board for each clause about the start of a step (`State.stepStartedOr`): PAUSE, HOLD, an empty group, the three judgements of each AWAIT kind. -/
theorem witness_stepStarted_waits :
    (stepOf (stepBoard [] pause)).kind = some .pause ∧ (stepOf (stepBoard [] [7, 0, 0, 0])).kind = some .hold
      ∧ (let s := stepBoard [] [0x41, 0xF3, 0, 0]; (stepOf s).kind = some .raise ∧ (stepOf s).group = true ∧ s.stepTargets (stepOf s) = [])
      ∧ (let s := stepBoard [(15, chan .on .good used)] [4, 15, 5, 0];
        (stepOf s).kind = some .awaitOn ∧ s.stepTargets (stepOf s) = [15] ∧ StepKind.awaitOn.met (s.rail 15).state = true)
      ∧ (let s := stepBoard [(15, chan .off .zero used)] [4, 15, 5, 0]; StepKind.awaitOn.lost (s.rail 15).state = true)
      ∧ (let s := stepBoard [(14, chan .on .good used), (15, chan .ramping .low used)] [0x44, 0, 5, 0];
        s.stepTargets (stepOf s) = [14, 15] ∧ (∀ r ∈ s.stepTargets (stepOf s), StepKind.awaitOn.lost (s.rail r).state = false)
          ∧ ∃ r ∈ s.stepTargets (stepOf s), StepKind.awaitOn.met (s.rail r).state = false)
      ∧ (let s := stepBoard [(15, chan .locked .zero used)] [5, 15, 5, 0];
        (stepOf s).kind = some .awaitOff ∧ StepKind.awaitOff.met (s.rail 15).state = true)
      ∧ (let s := stepBoard [] [5, 15, 5, 0]; s.stepTargets (stepOf s) = [15] ∧ StepKind.awaitOff.lost (s.rail 15).state = true)
      ∧ (let s := stepBoard [(15, chan .lowering .good used)] [5, 15, 5, 0];
        StepKind.awaitOff.lost (s.rail 15).state = false ∧ StepKind.awaitOff.met (s.rail 15).state = false) := by decide

/-- A board for each clause about an issuing step: RAISE and CLEAR accepted, in part, refused; LOWER refused in both ways, and carried out. -/
theorem witness_stepStarted_issues :
    (let s := stepBoard [(15, chan .off .zero used)] [1, 15, 0, 0];
      (stepOf s).kind = some .raise ∧ s.stepTargets (stepOf s) = [15] ∧ s.raiseRefusal 15 = none ∧ s.nothingStands 15 = true
        ∧ (stepOf s).holdAfter = false ∧ (s.plan 7).length ≤ 0 + 1 ∧ s.noneWaiting = true)
      ∧ (let s := stepBoard [(14, chan .off .zero used), (15, chan .off .low used)] [0x41, 0, 0, 0];
        s.stepTargets (stepOf s) = [14, 15] ∧ s.raiseRefusal 14 = none ∧ s.nothingStands 14 = true
          ∧ s.raiseRefusal 15 = some .backfeedPresent)
      ∧ (let s := stepBoard [] [1, 15, 0, 0]; s.stepTargets (stepOf s) = [15] ∧ s.raiseRefusal 15 = some .state)
      ∧ (let s := stepBoard [(14, chan .locked .zero used), (15, chan .locked .low used)] [0x43, 0, 0, 0];
        (stepOf s).kind = some .clear ∧ s.stepTargets (stepOf s) = [14, 15] ∧ s.clearRefusal 14 = none
          ∧ s.clearRefusal 15 = some .notDischarged)
      ∧ (let s := stepBoard [(15, chan .off .zero used)] [3, 15, 0, 0]; s.stepTargets (stepOf s) = [15] ∧ s.clearRefusal 15 = none)
      ∧ (let s := stepBoard [(15, chan .on .good used)] [3, 15, 0, 0]; s.clearRefusal 15 = some .state)
      ∧ (let s := stepBoard [(15, chan .faulted .zero used)] [2, 15, 0, 0];
        (stepOf s).kind = some .lower ∧ (stepOf s).group = false ∧ s.stepTargets (stepOf s) = [15]
          ∧ (s.rail 15).state.notLowerable = true)
      ∧ (let s := stepBoard [(0, chan .on .good used), (15, chan .on .good { used with parentA := some 0 })] [2, 0, 0, 0];
        s.stepTargets (stepOf s) = [0] ∧ (s.rail 0).state.active = true ∧ s.childActive 0 15)
      ∧ (let s := stepBoard [(0, chan .on .good used), (15, chan .on .good { used with parentA := some 0 })] [0x82, 15, 0, 7];
        (stepOf s).holdAfter = true ∧ s.stepTargets (stepOf s) = [15] ∧ (s.rail 15).state.notLowerable = false
          ∧ ∀ x : Rail, ¬ s.childActive 15 x) := by decide

theorem witness_CancelRemovesEntry :
    8 ≤ (board [] 8).bus.arg0.toNat ∧ (∀ e ∈ (board [] 7).requests.queue, e.plan ≠ 7)
      ∧ (queued (board [] 7) [1, 7, 2]).requests.queue
          = [{ plan := 1, origin := .host, tag := some 1 }] ++ { plan := 7, origin := .host, tag := some 1 }
              :: [{ plan := 2, origin := .host, tag := some 1 }] := by decide

theorem witness_ReleaseGoesOn :
    (∀ run, (board []).engine.run = some run → run.phase ≠ .held)
      ∧ ((ready ((board []).setRun (some (runAt .held 1 0))) 0).engine.run = some (runAt .held 1 0)
          ∧ (1 : StepNo).val = (runAt .held 1 0).step.val + 1
          ∧ (1 : StepNo).val < ((ready ((board []).setRun (some (runAt .held 1 0))) 0).plan 1).length)
      ∧ ((ready ((board []).setRun (some (runAt .held 1 1))) 0).plan 1).length ≤ (runAt .held 1 1).step.val + 1
      ∧ (ready ((board []).setRun (some (runAt .held 1 1))) 0).noneWaiting = true :=
  ⟨fun run h => absurd (show none = some run from h) (by simp), by decide, by decide, by decide⟩

theorem witness_AbortEndsRun :
    (board []).engine.run = none
      ∧ (let s := ready ((board []).setRun (some (runAt .quiet 1 0))) 5;
          s.engine.run = some (runAt .quiet 1 0) ∧ s.requests.slot = none ∧ s.requests.queue = [])
      ∧ (let s := queued (ready ((board []).setRun (some (runAt .waiting 1 0))) 5) [2];
          s.requests.queue = { plan := 2, origin := .host, tag := some 1 } :: [] ∧ (s.plan 2).quiet ≠ 0) := by decide

theorem witness_EngineResetClearsRunSide :
    (board []).pins.inReset = false ∧ (board []).store.defining = none ∧ (defining [pause] 4).store.defining = some 7 := by decide

/-! ### Witnesses: reports and registers -/

theorem witness_LogPopRemovesOldest : (board []).log.records = [] ∧ ∃ x, busy.log.records = x :: [] := ⟨rfl, _, rfl⟩

theorem witness_ShedAckClearsLatch :
    (board []).notify.shed = false ∧ (killed busy).notify.shed = true ∧ (killed busy).pins.kill = true
      ∧ (busy.pins.kill = false ∧ (busy.rail 2).cfg.shedMember = true ∧ (busy.rail 2).state = .locked
          ∧ ∀ x : Rail, x < 2 → (busy.rail x).cfg.shedMember = true → (busy.rail x).state ≠ .faulted ∧ (busy.rail x).state ≠ .locked)
      ∧ ((setShed (board [])).notify.shed = true
          ∧ ∀ x : Rail, ((setShed (board [])).rail x).cfg.shedMember = true →
              ((setShed (board [])).rail x).state ≠ .faulted ∧ ((setShed (board [])).rail x).state ≠ .locked) := by decide

theorem witness_FlagAndConfigWrites : busy.pins.inReset = false ∧ busy.notify.flags.getLsbD 1 = false := by decide

theorem witness_EvenWriteReplacesEnables : busy.pins.inReset = false := rfl

theorem witness_TableSelectionCopies :
    busy.pins.inReset = false ∧ (15#8 : Byte) = railByte 15 ∧ busy.log.records[0]?.isSome = true ∧ busy.log.records.length ≤ 1
      ∧ busy.requests.queue[0]?.isSome = true ∧ (inUse 0).requests.slot.isSome = true ∧ (9 : Nat) ∉ [3, 6, 7, 8]
      ∧ busy.requests.queue.length ≤ 3 ∧ busy.requests.slot = none ∧ 4 < (5#8 : Byte).toNat ∧ busy.engine.report = none
      ∧ (busy.idleAfter ((runAt .waiting 1 0).ended .done)).engine.report.isSome = true ∧ 16 ≤ (16#8 : Byte).toNat := by decide

theorem witness_TdataReadStepsThroughRecord :
    ({ busy.bus with tsel := 1, tidx := 15, tptr := 19 } : HostBus).tidx = railByte 15
      ∧ ({ busy.bus with tsel := 3, tidx := 15, tptr := 0 } : HostBus).tsel.toNat ∈ [3, 6, 7, 8]
      ∧ (({ busy.bus with tsel := 1, tidx := 16 } : HostBus).tsel.toNat = 1 ∧ 16 ≤ ({ busy.bus with tsel := 1, tidx := 16 } : HostBus).tidx.toNat)
      ∧ (({ busy.bus with tsel := 4, tidx := 8 } : HostBus).tsel.toNat ∈ [4, 5]
          ∧ 8 ≤ ({ busy.bus with tsel := 4, tidx := 8 } : HostBus).tidx.toNat)
      ∧ ({ busy.bus with tsel := 9, tptr := 255 } : HostBus).tptr ≠ 0 ∧ 8 < ({ busy.bus with tsel := 9 } : HostBus).tsel.toNat := by decide

theorem witness_TdataWriteStoresOrIgnores :
    (let b : HostBus := { busy.bus with tsel := 2, tptr := 19 }; b.tsel.toNat = 2 ∧ b.tptr.toNat < 20)
      ∧ (let b : HostBus := { busy.bus with tsel := 2, tptr := 20 }; b.tsel.toNat = 2 ∧ 20 ≤ b.tptr.toNat)
      ∧ (let b : HostBus := { busy.bus with tsel := 5, tidx := 2, tptr := 63 };
          b.tsel.toNat = 5 ∧ busy.store.defining = some 2 ∧ b.tidx = byte (2 : PlanNo).val ∧ b.tptr.toNat < 64)
      ∧ (let b : HostBus := { busy.bus with tsel := 5, tidx := 3, tptr := 64 };
          64 ≤ b.tptr.toNat ∧ b.tidx ≠ byte (2 : PlanNo).val) := by decide

theorem witness_SnapshotsAndPlainWrites :
    busy.pins.inReset = false ∧ busy.engine.run = some (runAt .waiting 1 0) ∧ (board []).engine.run = none
      ∧ busy.requests.queue.length ≤ 4 ∧ busy.log.records.length ≤ 17
      ∧ (true && true && !true) = false ∧ rowOfRead 0x1B = some .tdataRead
      ∧ (Instr.registerWrite 0x3F 0).wf = true ∧ (0x3F : Addr).toNat ∉ [0x0C, 0x0D, 0x0E, 0x0F, 0x1A] := by decide

/-! ### Witnesses: pins -/

theorem witness_KillAssertionTakesAllDown :
    busy.pins.inReset = false ∧ busy.pins.kill = false ∧ busy.engine.run = some (runAt .waiting 1 0) ∧ (board []).engine.run = none := by
  decide

theorem witness_KillDeassertionSetsFlag : (killed busy).pins.inReset = false ∧ (killed busy).pins.kill = true := ⟨rfl, rfl⟩

/-- A record bound to XF0# with EXT in its set. -/
def bound : RailCfg := { used with binding := some .xf0, detect := { used.detect with ext := true } }

theorem witness_ExternalInputEdges :
    (let s := board [(3, chan .off .zero bound)];
      s.pins.inReset = false ∧ s.xf .xf0 = false ∧ ∀ r : Rail, (s.rail r).cfg.binding = some .xf0 →
        (s.rail r).state.active = false ∨ (s.rail r).cfg.detect.ext = false ∨ (s.rail r).armExt = false)
      ∧ (let s := board [(3, chan .on .good { bound with response := .report })];
        s.xf .xf0 = false ∧ (∀ y : Rail, (s.rail y).cfg.binding = some .xf0 ↔ y = 3) ∧ (s.rail 3).state.active = true
          ∧ (s.rail 3).cfg.detect.ext = true ∧ (s.rail 3).armExt = true ∧ (s.rail 3).cfg.response = .report)
      ∧ (let s := { board [(3, chan .on .good bound)] with pins := { Pins.reset with xf0 := true } };
        s.xf .xf0 = true ∧ s.pins.inReset = false) := by decide

/-- ECFG naming plan 7. -/
def pwr7 (s : State) : State := { s with requests := { s.requests with pwrPlan := some 7 } }

theorem witness_PwrreqEdges :
    (board []).pins.inReset = false ∧ (board []).pins.pwrreq = false ∧ (board []).requests.pwrPlan = none
      ∧ (killed (board [])).pins.kill = true
      ∧ ((pwr7 (board [])).requests.pwrPlan = some 7 ∧ ((pwr7 (board [])).plan 7).state ≠ .ready)
      ∧ (let s := pwr7 (queued (ready (board []) 5) [7]);
          (s.plan 7).state = .ready ∧ ∃ e ∈ s.requests.queue, e.plan = 7)
      ∧ (let s := pwr7 (queued (ready (board []) 5) [0, 1, 2, 3]);
          (∀ e ∈ s.requests.queue, e.plan ≠ 7) ∧ 4 ≤ s.requests.queue.length)
      ∧ (let s := pwr7 ((queued (ready (board []) 5) [0, 1, 2]).setRun (some (runAt .waiting 1 0)));
          s.requests.pwrPlan = some 7 ∧ s.requests.queue.length < 4 ∧ s.engine.run ≠ none)
      ∧ (let s := pwr7 (ready (board []) 5);
          s.engine.run = none ∧ s.noneWaiting = true ∧ (s.plan 7).quiet ≠ 0) := by decide

/-! ### Witnesses: arrivals -/

/-- The reset levels with settle time 0. -/
def noSettle : RailCfg := { used with settleTime := 0 }

theorem witness_ZoneArrivalWhileActive :
    (let s := board [(15, chan .ramping .low used)];
      s.pins.inReset = false ∧ (s.rail 15).mayReportZone .good 3000 = true ∧ (s.rail 15).zone ≠ .good ∧ s.unawaited 15 = true
        ∧ (s.rail 15).state = .ramping ∧ (s.rail 15).cfg.settleTime ≠ 0)
      ∧ (let s := board [(15, chan .ramping .low noSettle)];
        (s.rail 15).mayReportZone .good 3600 = true ∧ (s.rail 15).cfg.settleTime = 0)
      ∧ (let s := board [(15, chan .ramping .good { used with detect := { used.detect with ov := false } })];
        (s.rail 15).mayReportZone .high 3700 = true ∧ (s.rail 15).zone ≠ .high ∧ (s.rail 15).cfg.detect.ov = false)
      ∧ (let s := board [(15, chan .on .low used)];
        (s.rail 15).mayReportZone .good 3300 = true ∧ (s.rail 15).zone ≠ .good ∧ (s.rail 15).state = .on)
      ∧ (let s := board [(15, chan .on .good { used with detect := { used.detect with uv := false } })];
        (s.rail 15).mayReportZone .low 1000 = true ∧ (s.rail 15).zone ≠ .low ∧ (s.rail 15).cfg.detect.uv = false)
      ∧ (let s := board [(15, chan .on .good used)];
        (s.rail 15).mayReportZone .zero 0 = true ∧ (s.rail 15).zone ≠ .zero
          ∧ ((s.rail 15).cfg.detect.uv && (s.rail 15).armUv && (s.rail 15).uvT.isNone) = true ∧ (s.rail 15).cfg.filterTime ≠ 0) := by
  decide

/-- A record with BACKFEED in its set. -/
def backfed : RailCfg := { used with detect := { used.detect with backfeed := true } }

theorem witness_ZoneArrivalWhileDown :
    (let s := board [];
      s.pins.inReset = false ∧ (s.rail 15).mayReportZone .low 1000 = true ∧ (s.rail 15).zone ≠ .low ∧ s.unawaited 15 = true
        ∧ (s.rail 15).state = .unused)
      ∧ (let s := board [(15, chan .off .low backfed)];
        (s.rail 15).mayReportZone .zero 0 = true ∧ (s.rail 15).zone ≠ .zero ∧ (s.rail 15).state = .off)
      ∧ (let s := board [(15, chan .off .zero backfed)];
        (s.rail 15).mayReportZone .low 1000 = true ∧ (s.rail 15).zone ≠ .low
          ∧ ((s.rail 15).cfg.detect.backfeed && (s.rail 15).armBackfeed && (s.rail 15).backfeedT.isNone) = true
          ∧ (s.rail 15).cfg.filterTime ≠ 0)
      ∧ (let s := board [(15, chan .off .zero used)];
        ((s.rail 15).cfg.detect.backfeed && (s.rail 15).armBackfeed && (s.rail 15).backfeedT.isNone) = false)
      ∧ (let s := board [(15, chan .lowering .good used)];
        (s.rail 15).mayReportZone .low 1000 = true ∧ (s.rail 15).zone ≠ .low ∧ (s.rail 15).zone ≠ .zero ∧ (s.rail 15).state = .lowering)
      ∧ (let s := board [(15, { chan .faulted .low used with discharging := true, dis := true })];
        (s.rail 15).state = .faulted ∧ (s.rail 15).discharging = true ∧ (s.rail 15).zone ≠ .zero ∧ (s.rail 15).zone ≠ .good)
      ∧ (let s := board [(15, chan .locked .zero used)];
        (s.rail 15).state = .locked ∧ (s.rail 15).discharging = false ∧ (s.rail 15).zone ≠ .low)
      ∧ (let s := board [(15, { chan .faulted .zero used with retryT := some { interval := 100, startedAt := 0 } })];
        (s.rail 15).state = .faulted ∧ (s.rail 15).discharging = false ∧ (s.rail 15).retryT ≠ none ∧ (s.rail 15).zone ≠ .low) := by decide

theorem witness_ArrivalDeclaresOvAndExt :
    (let s := board [(15, chan .on .good { bound with response := .report })];
      s.pins.inReset = false ∧ (s.rail 15).state.active = true ∧ s.unawaited 15 = true ∧ (∀ x : Rail, 15 ∉ (s.rail x).cfg.parents)
        ∧ (s.rail 15).cfg.faultPlan = none ∧ (s.rail 15).cfg.shedMember = false ∧ (s.rail 15).mayReportZone .high 3600 = true
        ∧ (s.rail 15).zone ≠ .high ∧ (s.rail 15).cfg.detect.ov = true ∧ (s.rail 15).armOv = true ∧ (s.rail 15).cfg.response = .report)
      ∧ (let s := board [(15, chan .ramping .good bound)];
        (s.rail 15).state.active = true ∧ (s.rail 15).cfg.response ≠ .report ∧ s.xf .xf0 = false
          ∧ (∀ y : Rail, (s.rail y).cfg.binding = some .xf0 ↔ y = 15) ∧ (s.rail 15).cfg.detect.ext = true ∧ (s.rail 15).armExt = true) := by
  decide

theorem witness_OverCurrentArrivalFilters :
    (let s := board [(15, chan .off .zero used)];
      s.pins.inReset = false ∧ (s.rail 15).mayReportFlag true 2001 = true ∧ (s.rail 15).overCurrent ≠ true
        ∧ (s.rail 15).state.active = false)
      ∧ (let s := board [(15, { chan .on .good used with overCurrent := true })];
        (s.rail 15).mayReportFlag false 2000 = true ∧ (s.rail 15).overCurrent ≠ false ∧ (s.rail 15).state.active = true)
      ∧ (let s := board [(15, chan .on .good used)];
        ((s.rail 15).cfg.detect.oc && (s.rail 15).armOc && (s.rail 15).ocT.isNone) = true ∧ (s.rail 15).cfg.filterTime ≠ 0)
      ∧ (let s := board [(15, { chan .on .good used with armOc := false })];
        ((s.rail 15).cfg.detect.oc && (s.rail 15).armOc && (s.rail 15).ocT.isNone) = false)
      ∧ (let s := board [(15, chan .on .good { used with filterTime := 0, response := .report })];
        ((s.rail 15).cfg.detect.oc && (s.rail 15).armOc && (s.rail 15).ocT.isNone) = true ∧ (s.rail 15).cfg.filterTime = 0
          ∧ (s.rail 15).cfg.response = .report)
      ∧ (let s := board [(15, chan .on .good used)];
        (s.rail 15).mayReportFlag true 1940 = true ∧ (s.rail 15).overCurrent ≠ true ∧ withinLimitBand (s.rail 15).cfg 1940 = true
          ∧ withinLimitBand (s.rail 15).cfg 2060 = true)
      ∧ (let s := board [(15, chan .ramping .low used)];
        (s.rail 15).mayReportZone .good 2970 = true ∧ zoneAbove (s.rail 15).zone .goodLevel ≠ zoneAbove .good .goodLevel
          ∧ zoneAbove .zero .goodLevel ≠ zoneAbove .good .goodLevel ∧ withinBand ((s.rail 15).cfg.level .goodLevel) 2970 = true
          ∧ withinBand ((s.rail 15).cfg.level .goodLevel) 3030 = true) := by decide

/-! ### Witnesses: expiries -/

/-- A running timer. -/
def timer : Option Timer := some { interval := 5, startedAt := 0 }

/-- An engine WAITING in an AWAIT_ON on rail 15, the last step of plan 1. -/
def awaiting : State :=
  (((board [(15, { chan .ramping .good used with settleT := timer })]).setPlan 1 (planOfSteps [[4, 15, 5, 0]])).setRun
    (some { runAt .waiting 1 0 with selection := RailSet.add 0 15 }))

theorem witness_SettleExpiryEntersOn :
    (let s := board [(15, { chan .ramping .good used with settleT := timer })];
      (s.rail 15).state = .ramping ∧ (s.rail 15).settleT ≠ none ∧ s.unawaited 15 = true)
      ∧ ((awaiting.rail 15).state = .ramping
          ∧ awaiting.engine.run = some { runAt .waiting 1 0 with selection := RailSet.add 0 15 }
          ∧ (awaiting.stepRec (runAt .waiting 1 0) 0).kind = some .awaitOn ∧ (awaiting.stepRec (runAt .waiting 1 0) 0).holdAfter = false
          ∧ (awaiting.plan 1).length ≤ 0 + 1 ∧ awaiting.noneWaiting = true) := by decide

/-- Rail 0 ON with its filters running, its child and grandchild ON. -/
def tree : State :=
  board [(0, { chan .on .good used with uvT := timer, ocT := timer }), (1, chan .on .good { used with parentA := some 0 }),
    (2, chan .on .good { used with parentA := some 1 }), (3, { chan .ramping .low used with rampT := timer })]

theorem witness_OwnFaultCutsAndCascades :
    tree.parentsBelow ∧ tree.parentsOn ∧ tree.engine.run = none ∧ (tree.rail 0).cfg.faultPlan = none
      ∧ ((tree.rail 0).state = .on ∧ (tree.rail 0).uvT ≠ none ∧ (tree.rail 0).ocT ≠ none ∧ (tree.rail 0).cfg.response ≠ .report)
      ∧ ((tree.rail 3).state = .ramping ∧ (tree.rail 3).rampT ≠ none) ∧ ∀ y ∈ tree.log.records, y.subject.source ≠ 0 := by
  unfold State.parentsBelow State.parentsOn; decide

/-- Rail 2 is a descendant of rail 0 that the cascade takes. -/
theorem witness_OwnFaultCutsAndCascades_taken : tree.Ancestor 0 2 ∧ (tree.rail 2).state.active = true :=
  ⟨.step (b := 1) (.parent (by decide)) (by decide), by decide⟩

/-- A REPORT rail ON with both filters running, and the same with its record in the log. -/
def reporting : State := board [(2, { chan .on .good { used with response := .report } with uvT := timer, ocT := timer })]

theorem witness_ReportRecordsAndDisarms :
    ((reporting.rail 2).cfg.response = .report ∧ (reporting.rail 2).state = .on ∧ (reporting.rail 2).uvT ≠ none ∧ (reporting.rail 2).ocT ≠ none
        ∧ ∀ y ∈ reporting.log.records, y.subject.source ≠ 2)
      ∧ (let s := { reporting with log := busy.log };
        s.log.records = [] ++ { subject := .rail 2 .oc .on none, seen := 4, repeats := 1, firstTime := 0, lastTime := 0, context := none } :: []) := by
  decide

theorem witness_DischargeBackfeedRetryExpiries :
    (let s := board [(14, { chan .lowering .low used with dischargeT := timer }), (15, { chan .locked .low used with dischargeT := timer }),
        (13, { chan .off .low backfed with backfeedT := timer })];
      (s.rail 14).state = .lowering ∧ (s.rail 14).dischargeT ≠ none ∧ s.unawaited 14 = true ∧ (s.rail 15).state = .locked
        ∧ (s.rail 15).dischargeT ≠ none ∧ (s.rail 13).state = .off ∧ (s.rail 13).backfeedT ≠ none)
      ∧ (let s := board [(0, chan .off .zero used), (15, { chan .faulted .zero { used with parentA := some 0 } with retryT := timer })];
        (s.rail 15).state = .faulted ∧ (s.rail 15).retryT ≠ none ∧ ¬ s.allParentsOn 15)
      ∧ (let s := board [(0, chan .on .good used), (15, { chan .faulted .zero { used with parentA := some 0 } with retryT := timer })];
        (s.rail 15).state = .faulted ∧ (s.rail 15).retryT ≠ none ∧ s.allParentsOn 15 ∧ s.pins.kill = false ∧ (s.rail 15).zone = .zero
          ∧ s.nothingStands 15 = true ∧ s.unawaited 15 = true) := by decide

/-- An engine at a step of plan 1 with its three timers running. -/
def engineAt (run : Run) (l : List (List Byte)) (unwind : Option PlanNo := none) : State :=
  (((board []).setPlan 1 (planOfSteps l 5 unwind)).setRun (some run)).setEngineTimers timer timer timer

theorem witness_EngineTimerExpiries :
    (let s := engineAt (runAt .quiet 1 0) [pause];
      s.engine.run = some (runAt .quiet 1 0) ∧ s.engine.quietT ≠ none ∧ 0 < (s.plan 1).length)
      ∧ (let s := engineAt (runAt .waiting 1 0) [pause];
        s.engine.stepT ≠ none ∧ (s.stepRec (runAt .waiting 1 0) 0).kind = some .pause ∧ (s.stepRec (runAt .waiting 1 0) 0).holdAfter = false
          ∧ (s.plan 1).length ≤ 0 + 1 ∧ s.noneWaiting = true)
      ∧ (let s := engineAt (runAt .waiting 1 0) [pause, [1, 15, 0, 0]];
        (s.stepRec (runAt .waiting 1 0) 0).holdAfter = false ∧ (1 : StepNo).val = 0 + 1 ∧ (1 : StepNo).val < (s.plan 1).length)
      ∧ (let s := engineAt (runAt .waiting 1 0) [[0x86, 0, 5, 7]];
        (s.stepRec (runAt .waiting 1 0) 0).kind = some .pause ∧ (s.stepRec (runAt .waiting 1 0) 0).holdAfter = true)
      ∧ (let s := engineAt (runAt .waiting 1 0) [[4, 15, 5, 0]];
        (s.stepRec (runAt .waiting 1 0) 0).kind = some .awaitOn ∧ (s.plan 1).unwind = none ∧ s.noneWaiting = true)
      ∧ (let s := engineAt { runAt .held 1 0 .unwind with failedPlan := some 2 } [[7, 0, 5, 0]];
        s.engine.holdT ≠ none ∧ s.noneWaiting = true)
      ∧ (let s := (engineAt (runAt .held 1 0) [[7, 0, 5, 0]] (some 3)).setPlan 3 (planOfSteps [pause]);
        (s.plan 1).unwind = some 3 ∧ (s.plan 3).state = .ready ∧ 0 < (s.plan 3).length)
      ∧ (let s := engineAt (runAt .held 1 0) [[7, 0, 5, 0]] (some 3);
        (s.plan 1).unwind = some 3 ∧ (s.plan 3).state ≠ .ready ∧ s.noneWaiting = true) := by decide

/-- Rail 15 RAMPING with fault plan 7 and its ramp timer running. -/
def failing (s : State) : State := s.setRail 15 { chan .ramping .low { used with faultPlan := some 7 } with rampT := timer }

theorem witness_FaultPlanRequestJudged :
    (let s := failing (board []);
      (s.rail 15).state = .ramping ∧ (s.rail 15).rampT ≠ none ∧ (s.rail 15).cfg.faultPlan = some 7 ∧ (∀ x : Rail, 15 ∉ (s.rail x).cfg.parents)
        ∧ s.pins.kill = false ∧ s.unawaited 15 = true ∧ (s.plan 7).state ≠ .ready)
      ∧ (let s := failing (ready (board []) 5);
        (s.plan 7).state = .ready ∧ s.pauseAt 7 0 = true ∧ s.engine.run = none)
      ∧ (let s := failing (ready ((board []).setRun (some (runAt .waiting 1 0))) 5);
        s.unawaited 15 = true ∧ (runAt .waiting 1 0).role ≠ .urgent ∧ s.pauseAt 7 0 = true)
      ∧ (let s := failing (ready (inUse 0) 5);
        s.unawaited 15 = true ∧ (s.engine.run.map (fun x => x.role)) = some .urgent ∧ (s.requests.slot.map (fun q => q.plan)) = some 3) := by
  decide

end Sys2Proof.Tests
end

section
/-! PROOFS. LOAD_RAIL (R5), and WRITE_RAIL refused, check by check (R6, R7). The checks as the model makes them, on the decoded record and in a
chain of branches, are the checks of R7 read off the bytes, taken in order (`configCheck_eq_find`). -/

namespace Sys2Proof.Machine

/-! ### Numbers in operands and record bytes -/

@[simp] theorem toNat_railByte (r : Rail) : (railByte r).toNat = r.val :=
  Nat.mod_eq_of_lt (r.isLt.trans (by decide))

@[simp] theorem railOf_railByte (r : Rail) : railOf (railByte r) = some r := by
  simp [railOf]

theorem railOf_eq_none {b : Byte} : railOf b = none ↔ 16 ≤ b.toNat := by
  simp [railOf]

theorem railOf_eq_some {b : Byte} {p : Rail} : railOf b = some p ↔ b = railByte p := by
  refine ⟨fun h => ?_, fun h => h ▸ railOf_railByte p⟩
  obtain ⟨_, hp⟩ := Option.dite_none_right_eq_some.mp h
  obtain rfl := Option.some.inj hp
  exact BitVec.eq_of_toNat_eq (by simp)

/-- A byte that is FFh or names a rail names none exactly when it is FFh (R189). -/
theorem railOf_eq_none_of_railField {b : Byte} (h : railField b = true) : railOf b = none ↔ b = 0xFF := by
  simp only [railField, Bool.or_eq_true, decide_eq_true_eq, beq_iff_eq] at h
  rw [railOf_eq_none]
  bv_omega

theorem railOf_any_le (b : Byte) (r : Rail) :
    (railOf b).any (fun p => decide (r ≤ p)) = (decide (b.toNat < 16) && decide (r.val ≤ b.toNat)) := by
  by_cases h : b.toNat < 16
  · simp only [railOf, h, dite_true, Option.any_some, decide_true, Bool.true_and]
    rfl
  · simp [railOf, h]

theorem mem_parents {c : RailCfg} {p : Rail} : p ∈ c.parents ↔ c.names p = true := by
  simp [RailCfg.parents, RailCfg.names]

/-- A test of the parents in a record is the test of the rails that its two parent bytes name. -/
theorem parents_decodeCfg_any (v : Vector Byte 20) (f : Rail → Bool) :
    (decodeCfg v).parents.any f = [v[2], v[3]].any (fun b => (railOf b).any f) := by
  simp only [RailCfg.parents, decodeCfg, List.any_append, List.any_cons, List.any_nil, Bool.or_false]
  cases railOf v[2] <;> cases railOf v[3] <;> simp

/-! ### The answer to a host command -/

theorem exec_loadRail (s : State) : exec .loadRail s = .next (hostCommand 0x08 hostLoadRail s) := by
  rfl

theorem exec_writeRail (s : State) : exec .writeRail s = .next (hostCommand 0x09 hostWriteRail s) := by
  rfl

/-- Outside a reset a command is carried out by its owner, with its code in CMD, and answered (R173, R177). -/
theorem hostCommand_eq_answer {s : State} {code : Byte} {owner : State → Verdict × State} (hr : s.pins.inReset = false) :
    hostCommand code owner s = answer (owner (setCmd code s)).1 (owner (setCmd code s)).2 := by
  simp [hostCommand, busWrite, hr]

/-- A command that its owner refuses without touching the part. -/
theorem hostCommand_refused {s : State} {code : Byte} {owner : State → Verdict × State} {v : Verdict}
    (hr : s.pins.inReset = false) (ho : owner (setCmd code s) = (v, setCmd code s)) (hv : v.code.isRefusal = true) :
    hostCommand code owner s = s.refusedWith code v.code.code v.detail := by
  rw [hostCommand_eq_answer hr, ho]
  simp only [answer, hv, if_true]
  rfl

/-! ### LOAD_RAIL -/

theorem hostLoadRail_badArgument {s : State} (h : 16 ≤ s.bus.arg0.toNat) : hostLoadRail s = (.plain .badArgument, s) := by
  simp [hostLoadRail, railOperand, railOf_eq_none.mpr h]

theorem hostLoadRail_railByte {s : State} {r : Rail} (h : s.bus.arg0 = railByte r) :
    hostLoadRail s = (.plain .accepted, s.setStaging (encodeCfg (s.rail r).cfg)) := by
  simp [hostLoadRail, railOperand, h]

/-- Settles O27: the owner refuses a number above 15, and copies the record of any other. -/
theorem loadRailCopiesRecord : Obligations.LoadRailCopiesRecord := by
  intro s hr
  refine ⟨fun h => ?_, fun r h => ?_⟩
  · rw [exec_loadRail, hostCommand_refused hr (hostLoadRail_badArgument (s := setCmd 0x08 s) h) rfl]
    rfl
  · rw [exec_loadRail, hostCommand_eq_answer hr, hostLoadRail_railByte (s := setCmd 0x08 s) h]
    rfl

/-! ### The checks of R7, one by one -/

/-! What the masks of check 3 say of a byte's number. -/

theorem decide_above (b : Byte) (n : Nat) : decide (n < b.toNat) = !decide (b.toNat < n + 1) := by
  rw [← decide_not]
  exact decide_eq_decide.mpr (by omega)

theorem and_F8_ne_zero : ∀ b : Byte, ((b &&& 0xF8) != 0) = !decide (b.toNat < 8) := by decide

theorem and_E0_ne_zero : ∀ b : Byte, ((b &&& 0xE0) != 0) = !decide (b.toNat < 32) := by decide

theorem and_CC_ne_zero : ∀ b : Byte, ((b &&& 0xCC) != 0) = !(b.toNat / 4 % 4 == 0 && b.toNat / 64 == 0) := by decide

theorem and_03_eq : ∀ b : Byte, ((b &&& 0x03) == 0x03) = !(b.toNat % 4 != 3) := by decide

theorem and_30_eq : ∀ b : Byte, ((b &&& 0x30) == 0x30) = !(b.toNat / 16 % 4 != 3) := by decide

/-- Byte 16 holds no binding exactly when its two lowest bits are 0, code 3 aside. -/
theorem bindingOf_eq_none : ∀ b : Byte, b.toNat % 4 ≠ 3 → (bindingOf b = none ↔ b.toNat % 4 = 0) := by decide

/-- Byte 16 holds RETRY exactly when its response code is 2, code 3 aside. -/
theorem responseOf_eq_retry : ∀ b : Byte, b.toNat / 16 % 4 ≠ 3 → (responseOf b = .retry ↔ b.toNat / 16 % 4 = 2) := by decide

section Checks

variable (s : State) (r : Rail)

theorem checkFails_one :
    (levelOutOfRange (decodeCfg s.bus.staging).offLevel || levelOutOfRange (decodeCfg s.bus.staging).goodLevel
      || levelOutOfRange (decodeCfg s.bus.staging).overLevel) = s.checkFails r 1 := by
  simp [State.checkFails, levelOutOfRange, decodeCfg, Bool.or_assoc]

theorem checkFails_two :
    ((decodeCfg s.bus.staging).goodLevel ≤ (decodeCfg s.bus.staging).offLevel
      ∨ (decodeCfg s.bus.staging).overLevel ≤ (decodeCfg s.bus.staging).goodLevel) ↔ s.checkFails r 2 = true := by
  simp [State.checkFails, decodeCfg]

theorem checkFails_three : fieldUndefined s.bus.staging = s.checkFails r 3 := by
  simp only [fieldUndefined, State.checkFails, and_F8_ne_zero, and_E0_ne_zero, and_CC_ne_zero, and_03_eq, and_30_eq,
    decide_above, railField]
  simp [bne]
  ac_rfl

theorem checkFails_four : (decodeCfg s.bus.staging).parents.any (fun p => decide (r ≤ p)) = s.checkFails r 4 := by
  simp only [parents_decodeCfg_any, railOf_any_le, State.checkFails]

theorem checkFails_six :
    (decodeCfg s.bus.staging).parents.any (fun p => (s.rail p).state == .unused) = s.checkFails r 6 :=
  parents_decodeCfg_any _ _

/-- What passing check 3 says of the fields that the later checks read. -/
theorem fields_defined {s : State} {r : Rail} (h : s.checkFails r 3 = false) :
    railField s.bus.staging[2] = true ∧ railField s.bus.staging[3] = true
      ∧ s.bus.staging[16].toNat % 4 ≠ 3 ∧ s.bus.staging[16].toNat / 16 % 4 ≠ 3 := by
  simp only [State.checkFails, Bool.not_eq_false', Bool.and_eq_true, bne_iff_ne] at h
  tauto

variable {s r}

theorem checkFails_five (h : s.checkFails r 3 = false) :
    ((decodeCfg s.bus.staging).parentB ≠ none ∧ ((decodeCfg s.bus.staging).parentA = none
      ∨ (decodeCfg s.bus.staging).parentB = (decodeCfg s.bus.staging).parentA)) ↔ s.checkFails r 5 = true := by
  obtain ⟨hA, hB, -, -⟩ := fields_defined h
  have noneA := railOf_eq_none_of_railField hA
  have noneB := railOf_eq_none_of_railField hB
  have same : railOf s.bus.staging[3] ≠ none →
      (railOf s.bus.staging[3] = railOf s.bus.staging[2] ↔ s.bus.staging[3] = s.bus.staging[2]) := by
    intro hp
    obtain ⟨p, hp⟩ := Option.ne_none_iff_exists'.mp hp
    rw [hp, eq_comm, railOf_eq_some, railOf_eq_some.mp hp, eq_comm]
  simp only [decodeCfg, State.checkFails, Bool.and_eq_true, Bool.or_eq_true, bne_iff_ne, beq_iff_eq]
  tauto

theorem checkFails_seven (h : s.checkFails r 3 = false) :
    ((decodeCfg s.bus.staging).detect.ext = true ∧ (decodeCfg s.bus.staging).binding = none) ↔ s.checkFails r 7 = true := by
  obtain ⟨-, -, hb, -⟩ := fields_defined h
  simp [decodeCfg, State.checkFails, bindingOf_eq_none _ hb]

theorem checkFails_eight (h : s.checkFails r 3 = false) :
    ((decodeCfg s.bus.staging).response = .retry ∧ (decodeCfg s.bus.staging).retryLimit = 0) ↔ s.checkFails r 8 = true := by
  obtain ⟨-, -, -, hr⟩ := fields_defined h
  simp [decodeCfg, State.checkFails, responseOf_eq_retry _ hr, ← BitVec.toNat_inj]

end Checks

/-! ### The checks in order -/

/-- The model's answer is the first check of R7 that fails on the bytes. Past check 3 the decoded record says what its bytes say. -/
theorem configCheck_eq_find (s : State) (r : Rail) : configCheck s r = (List.range 9).find? (s.checkFails r) := by
  have order : (List.range 9).find? (s.checkFails r) = [1, 2, 3, 4, 5, 6, 7, 8].find? (s.checkFails r) := rfl
  rw [order]
  simp only [configCheck, checkFails_one s r, checkFails_two s r, checkFails_three s r, checkFails_four, checkFails_six s r]
  cases h3 : s.checkFails r 3 with
  | true => split_ifs <;> simp_all
  | false =>
    simp only [checkFails_five h3, checkFails_seven h3, checkFails_eight h3]
    split_ifs <;> simp_all

theorem configCheck_eq_some {s : State} {r : Rail} {n : Nat} (hn : n < 9) (hf : s.checkFails r n = true)
    (hp : ∀ m ∈ List.range n, s.checkFails r m = false) : configCheck s r = some n := by
  rw [configCheck_eq_find, List.find?_range_eq_some]
  exact ⟨hf, List.mem_range.mpr hn, fun m hm => by simp [hp m (List.mem_range.mpr hm)]⟩

theorem configCheck_eq_none {s : State} {r : Rail} (h : s.checksPass r = true) : configCheck s r = none := by
  rw [configCheck_eq_find, List.find?_eq_none]
  simpa [State.checksPass] using h

/-! ### A parent in use -/

/-- The lowest-numbered rail that passes a test. -/
theorem lowestRail_eq_some {p : Rail → Bool} {x : Rail} : lowestRail p = some x ↔ p x = true ∧ ∀ y < x, p y = false := by
  have first := List.find?_ofFn_eq_some (n := 16) (f := id) (p := p) (b := x)
  rw [List.ofFn_id] at first
  simp [lowestRail, allRails, first]

theorem usedChild_eq_some {s : State} {r x : Rail} (hx : r ∈ (s.rail x).cfg.parents) (hu : (s.rail x).state ≠ .unused)
    (hl : ∀ y : Rail, y < x → r ∈ (s.rail y).cfg.parents → (s.rail y).state = .unused) : s.usedChild r = some x := by
  refine lowestRail_eq_some.mpr ⟨by simpa [mem_parents.mp hx] using hu, fun y hy => ?_⟩
  simpa [← mem_parents] using hl y hy

/-! ### WRITE_RAIL judged -/

theorem judgeWrite_state {s : State} {r : Rail} (ho : (s.rail r).state ≠ .off) (hu : (s.rail r).state ≠ .unused) :
    judgeWrite s r = .plain .state := by
  simp [judgeWrite, ho, hu]

theorem judgeWrite_invalidConfig {s : State} {r : Rail} {n : Nat} (hs : (s.rail r).state = .off ∨ (s.rail r).state = .unused)
    (hc : configCheck s r = some n) : judgeWrite s r = { code := .invalidConfig, detail := byte n } := by
  simp only [judgeWrite, hc]
  rcases hs with hs | hs <;> simp [hs]

theorem judgeWrite_parentInUse {s : State} {r x : Rail} (hs : (s.rail r).state = .off ∨ (s.rail r).state = .unused)
    (hc : configCheck s r = none) (hb : (decodeCfg s.bus.staging).used = false) (hx : s.usedChild r = some x) :
    judgeWrite s r = { code := .parentInUse, detail := railByte x } := by
  simp only [judgeWrite, hc, hb, hx]
  rcases hs with hs | hs <;> simp [hs]

theorem hostWriteRail_badArgument {s : State} (h : 16 ≤ s.bus.arg0.toNat) : hostWriteRail s = (.plain .badArgument, s) := by
  simp [hostWriteRail, railOperand, railOf_eq_none.mpr h]

theorem hostWriteRail_refused {s : State} {r : Rail} (h : s.bus.arg0 = railByte r) (hv : (judgeWrite s r).code ≠ .accepted) :
    hostWriteRail s = (judgeWrite s r, s) := by
  simp [hostWriteRail, railOperand, h, hv]

/-- WRITE_RAIL refused by its judgement. CMD, which the judgement does not read, already holds the code. -/
theorem exec_writeRail_refused {s : State} {r : Rail} {v : Verdict} (hr : s.pins.inReset = false) (h : s.bus.arg0 = railByte r)
    (hj : judgeWrite s r = v) (hv : v.code.isRefusal = true) : exec .writeRail s = .next (s.refusedWith 0x09 v.code.code v.detail) := by
  have hj' : judgeWrite (setCmd 0x09 s) r = v := hj
  have ha : v.code ≠ .accepted := fun he => by simp [he, Result.isRefusal] at hv
  have owner : hostWriteRail (setCmd 0x09 s) = (v, setCmd 0x09 s) := by
    rw [hostWriteRail_refused (s := setCmd 0x09 s) h (by rwa [hj']), hj']
  rw [exec_writeRail, hostCommand_refused hr owner hv]

/-- Settles O28, check by check in the order of R6. -/
theorem writeRailChecks : Obligations.WriteRailChecks := by
  intro s hr
  refine ⟨fun h => ?_, fun r h => ⟨fun ho hu => ?_, fun hs => ⟨fun n hn hf hp => ?_, fun hc hb x hx hu hl => ?_⟩⟩⟩
  · rw [exec_writeRail, hostCommand_refused hr (hostWriteRail_badArgument (s := setCmd 0x09 s) h) rfl]
    rfl
  · exact exec_writeRail_refused hr h (judgeWrite_state ho hu) rfl
  · have h9 : n < 9 := by simp at hn; omega
    exact exec_writeRail_refused hr h (judgeWrite_invalidConfig hs (configCheck_eq_some h9 hf hp)) rfl
  · exact exec_writeRail_refused hr h (judgeWrite_parentInUse hs (configCheck_eq_none hc) hb (usedChild_eq_some hx hu hl)) rfl

end Sys2Proof.Machine
end

section
/-! PROOFS. An edge of KILL# (R75), and the order of the network (R58, R61). The network sees of a rail only its parents and its state. As it sees
them, every command is a sequence of five kinds of event (`NetEvent`, `step_net`): nothing it sees moves, one rail takes an event of its own with the
cascade, rails are raised, rails go down, or the part is reset. Each keeps parents below their children (`NetEvent.parentsBelow`) and the law that
active rails stand on parents that are ON (`NetEvent.parentsOn`). -/

namespace Sys2Proof.Machine

/-! ### A deassertion edge of KILL# -/

/-- Settles O48: of the three branches of a deassertion edge, an asserted level outside a reset takes the one that sets the flag. -/
theorem killDeassertionSetsFlag : Obligations.KillDeassertionSetsFlag := by
  intro s hr hk
  have edge : killDeassertion s = setFlag .kill (s.setKill false) := by simp [killDeassertion, hk, hr]
  exact congrArg Host.Outcome.next edge

/-! ### What a rail does of itself -/

/-- From one moment of a rail's event to a later one nothing happens that the network does not allow for: the record stands, the rail does not become
active, and a rail that was ON stays ON or is cut by its own fault. -/
structure RailStep.OfItself (e e' : RailStep) : Prop where
  cfg : e'.rc.cfg = e.rc.cfg
  rises : e'.rc.state.active = true → e.rc.state.active = true
  drops : e.ownCut = true ∨ e.rc.state = .on → e'.ownCut = true ∨ e'.rc.state = .on

namespace RailStep.OfItself

theorem refl (e : RailStep) : e.OfItself e := ⟨rfl, id, id⟩

theorem trans {e e' e'' : RailStep} (h : e.OfItself e') (h' : e'.OfItself e'') : e.OfItself e'' :=
  ⟨h'.cfg.trans h.cfg, h.rises ∘ h'.rises, h'.drops ∘ h.drops⟩

theorem inactive {e e' : RailStep} (h : e.OfItself e') (ha : e.rc.state.active = false) : e'.rc.state.active = false :=
  Bool.eq_false_iff.mpr fun h' => Bool.eq_false_iff.mp ha (h.rises h')

/-- Timers, arms, outputs and views are nothing to the network. -/
theorem of_same {e e' : RailStep} (hc : e'.rc.cfg = e.rc.cfg) (hs : e'.rc.state = e.rc.state) (ho : e'.ownCut = e.ownCut) :
    e.OfItself e' := by
  refine ⟨hc, ?_, ?_⟩ <;> rw [hs]
  · exact id
  · rw [ho]; exact id

/-- A rail that was not ON goes to a state in which it is not active. -/
theorem of_inactive {e e' : RailStep} (hc : e'.rc.cfg = e.rc.cfg) (hn : e.rc.state ≠ .on) (ha : e'.rc.state.active = false)
    (ho : e'.ownCut = e.ownCut) : e.OfItself e' :=
  ⟨hc, by simp [ha], fun h => .inl (ho.trans (h.resolve_right hn))⟩

end RailStep.OfItself

theorem cutState_not_active (c : RailChan) : (cutState c).active = false := by
  unfold cutState
  split <;> rfl

theorem disarm_cfg (k : FaultKind) (c : RailChan) : (disarm k c).cfg = c.cfg := by
  cases k <;> rfl

theorem disarm_state (k : FaultKind) (c : RailChan) : (disarm k c).state = c.state := by
  cases k <;> rfl

theorem endDischarge_cfg (now : Uptime) (c : RailChan) : (endDischarge now c).cfg = c.cfg := by
  unfold endDischarge startRetry
  split <;> rfl

theorem endDischarge_state (now : Uptime) (c : RailChan) : (endDischarge now c).state = c.state := by
  unfold endDischarge startRetry
  split <;> rfl

theorem cutTo_cfg (now : Uptime) (st : RailState) (c : RailChan) : (cutTo now st c).cfg = c.cfg := by
  simp only [cutTo]
  split
  · exact endDischarge_cfg now _
  · rfl

theorem cutTo_state (now : Uptime) (st : RailState) (c : RailChan) : (cutTo now st c).state = st := by
  simp only [cutTo]
  split
  · exact endDischarge_state now _
  · rfl

/-- A fault of the rail's own is its own cut, or under REPORT leaves its state (R32). -/
theorem declareOwn_ofItself (now : Uptime) (k : FaultKind) (e : RailStep) : e.OfItself (declareOwn now k e) := by
  unfold declareOwn
  split
  · exact .of_same (disarm_cfg k e.rc) (disarm_state k e.rc) rfl
  · have inactive : (cutTo now (cutState e.rc) e.rc).state.active = false := by
      rw [cutTo_state, cutState_not_active]
    exact ⟨cutTo_cfg now _ e.rc, fun h => absurd h (by simpa [RailStep.move, latch] using inactive), fun _ => .inl rfl⟩

theorem declareOv_ofItself (now : Uptime) (e : RailStep) : e.OfItself (declareOv now e) := by
  unfold declareOv
  split
  · exact declareOwn_ofItself now .ov e
  · exact .refl e

theorem declareExt_ofItself (now : Uptime) (e : RailStep) : e.OfItself (declareExt now e) := by
  unfold declareExt
  split
  · exact declareOwn_ofItself now .ext e
  · exact .refl e

theorem startUv_ofItself (now : Uptime) (e : RailStep) : e.OfItself (startUv now e) := by
  unfold startUv
  split_ifs
  · exact declareOwn_ofItself now .uv e
  · exact .of_same rfl rfl rfl
  · exact .refl e

theorem startOc_ofItself (now : Uptime) (e : RailStep) : e.OfItself (startOc now e) := by
  unfold startOc
  split_ifs
  · exact declareOwn_ofItself now .oc e
  · exact .of_same rfl rfl rfl
  · exact .refl e

theorem startBackfeed_ofItself (now : Uptime) (e : RailStep) : e.OfItself (startBackfeed now e) := by
  unfold startBackfeed
  split_ifs
  · exact .of_same rfl rfl rfl
  · exact .of_same rfl rfl rfl
  · exact .refl e

theorem judgeOff_ofItself (now : Uptime) (e : RailStep) : e.OfItself (judgeOff now e) := by
  unfold judgeOff
  split
  · exact .refl e
  · exact startBackfeed_ofItself now e

/-- A rail that is not ON and enters OFF (R16, R22). -/
theorem enterOff_ofItself (now : Uptime) (e : RailStep) (h : e.rc.state ≠ .on) : e.OfItself (enterOff now e) :=
  .trans (e' := e.move (offChannel e.rc)) (.of_inactive rfl h rfl rfl) (judgeOff_ofItself now _)

theorem enterOn_ofItself (e : RailStep) (h : e.rc.state = .ramping) : e.OfItself (enterOn e) :=
  ⟨rfl, fun _ => by rw [h]; rfl, fun _ => .inr rfl⟩

theorem judgeRamping_ofItself (now : Uptime) (e : RailStep) (h : e.rc.state = .ramping) : e.OfItself (judgeRamping now e) := by
  have unsettled : e.OfItself (e.withRc { e.rc with settleT := none }) := .of_same rfl rfl rfl
  unfold judgeRamping
  split
  · split
    · exact enterOn_ofItself e h
    · exact .of_same rfl rfl rfl
  · exact unsettled.trans (declareOv_ofItself now _)
  · exact unsettled
  · exact unsettled

theorem judgeOn_ofItself (now : Uptime) (e : RailStep) : e.OfItself (judgeOn now e) := by
  have unfiltered : e.OfItself (e.withRc { e.rc with uvT := none }) := .of_same rfl rfl rfl
  unfold judgeOn
  split
  · exact unfiltered
  · exact unfiltered.trans (declareOv_ofItself now _)
  · exact startUv_ofItself now e
  · exact startUv_ofItself now e

theorem judgeCut_ofItself (now : Uptime) (e : RailStep) : e.OfItself (judgeCut now e) := by
  unfold judgeCut
  split_ifs
  · exact .of_same (endDischarge_cfg now e.rc) (endDischarge_state now e.rc) rfl
  · exact .refl e
  · exact .of_same rfl rfl rfl
  · exact .refl e

/-- A zone arrival, by the rail's state (R12). -/
theorem railZoneArrival_ofItself (now : Uptime) (e : RailStep) : e.OfItself (railZoneArrival now e) := by
  have rearmed : e.OfItself (e.withRc (rearmByZone e.rc)) := .of_same rfl rfl rfl
  unfold railZoneArrival
  split
  · exact .refl e
  · unfold arriveOff
    split
    · exact .of_same rfl rfl rfl
    · exact startBackfeed_ofItself now e
  · exact rearmed.trans (judgeRamping_ofItself now _ (by assumption))
  · exact rearmed.trans (judgeOn_ofItself now _)
  · rename_i hs
    unfold judgeLowering
    split
    · exact enterOff_ofItself now e (by simp [hs])
    · exact .refl e
  · exact judgeCut_ofItself now e
  · exact judgeCut_ofItself now e

/-! ### The events of one rail -/

section Events

variable (now : Uptime) (e : RailStep)

theorem takeZone_ofItself (z : Zone) : e.OfItself (takeZone now z e) :=
  .trans (e' := (e.withRc (e.rc.noteZone z)).withRc { e.rc.noteZone z with zone := z }) (.of_same rfl rfl rfl)
    (railZoneArrival_ofItself now _)

theorem railOverCurrent_ofItself : e.OfItself (railOverCurrent now e) := by
  unfold railOverCurrent
  split_ifs
  · exact startOc_ofItself now e
  · exact .of_same rfl rfl rfl
  · exact .refl e

theorem takeFlag_ofItself (b : Bool) : e.OfItself (takeFlag now b e) :=
  .trans (e' := (e.withRc (e.rc.noteFlag b)).withRc { e.rc.noteFlag b with overCurrent := b }) (.of_same rfl rfl rfl)
    (railOverCurrent_ofItself now _)

theorem railXfAssert_ofItself : e.OfItself (railXfAssert now e) := by
  unfold railXfAssert
  split
  · exact declareExt_ofItself now e
  · exact .refl e

theorem railRampExpiry_ofItself : e.OfItself (railRampExpiry now e) := by
  unfold railRampExpiry
  split
  · exact .trans (e' := e.withRc { e.rc with rampT := none }) (.of_same rfl rfl rfl) (declareOwn_ofItself now _ _)
  · exact .refl e

theorem railSettleExpiry_ofItself : e.OfItself (railSettleExpiry e) := by
  unfold railSettleExpiry
  split
  · rename_i h
    exact enterOn_ofItself e h.1
  · exact .refl e

theorem railUvExpiry_ofItself : e.OfItself (railUvExpiry now e) := by
  unfold railUvExpiry
  split
  · exact .trans (e' := e.withRc { e.rc with uvT := none }) (.of_same rfl rfl rfl) (declareOwn_ofItself now _ _)
  · exact .refl e

theorem railOcExpiry_ofItself : e.OfItself (railOcExpiry now e) := by
  unfold railOcExpiry
  split
  · exact .trans (e' := e.withRc { e.rc with ocT := none }) (.of_same rfl rfl rfl) (declareOwn_ofItself now _ _)
  · exact .refl e

theorem railBackfeedExpiry_ofItself : e.OfItself (railBackfeedExpiry e) := by
  unfold railBackfeedExpiry
  split
  · exact .of_same rfl rfl rfl
  · exact .refl e

theorem railDischargeExpiry_ofItself : e.OfItself (railDischargeExpiry e) := by
  unfold railDischargeExpiry
  split
  · exact .refl e
  · split
    · rename_i hs; exact .of_inactive rfl (by simp [hs]) rfl rfl
    · rename_i hs; exact .of_inactive rfl (by simp [hs]) rfl rfl
    · rename_i hs; exact .of_inactive rfl (by simp [hs]) rfl rfl
    · exact .refl e

/-- An entry into RAMPING, seen from the moment at which the rail has become RAMPING (R17, R40). -/
theorem enterRamping_ofItself (xf : Bool) : (e.move (rampingChannel now e.rc)).OfItself (enterRamping now xf e) := by
  have flag (x : RailStep) : x.OfItself (judgeFlagAtEntry now x) := by
    unfold judgeFlagAtEntry
    split
    · exact startOc_ofItself now x
    · exact .refl x
  have input (x : RailStep) : x.OfItself (judgeInputAtEntry now xf x) := by
    unfold judgeInputAtEntry
    split
    · exact declareExt_ofItself now x
    · exact .refl x
  exact ((judgeRamping_ofItself now _ rfl).trans (flag _)).trans (input _)

theorem railRaise_cfg (xf : Bool) : (railRaise now xf e).rc.cfg = e.rc.cfg :=
  (enterRamping_ofItself now (e.withRc { e.rc with retries := 0 }) xf).cfg

theorem railClear_ofItself (h : e.rc.state ≠ .on) : e.OfItself (railClear now e) :=
  .trans (e' := e.withRc { e.rc with latched := 0, firstKind := none }) (.of_same rfl rfl rfl) (enterOff_ofItself now _ h)

/-- A retry expiry raises a FAULTED rail whose parents are ON, and does nothing else that the network sees (R51, R52). -/
theorem railRetryExpiry_cases (xf on kill : Bool) :
    e.OfItself (railRetryExpiry now xf on kill e)
      ∨ e.rc.state = .faulted ∧ on = true ∧ (railRetryExpiry now xf on kill e).rc.cfg = e.rc.cfg := by
  unfold railRetryExpiry
  split
  · rename_i h
    split
    · rename_i h'
      exact .inr ⟨h.1, h'.1, (enterRamping_ofItself now (e.withRc _) xf).cfg⟩
    · refine .inl (.of_same ?_ ?_ rfl) <;> simp only [RailStep.withRc, startRetry] <;> split <;> rfl
  · exact .inl (.refl e)

/-- A rail lowered is not active, its record as it was (R22). -/
theorem enterLowering_ends : (enterLowering now e).rc.cfg = e.rc.cfg ∧ (enterLowering now e).rc.state.active = false := by
  simp only [enterLowering]
  split
  · have off (c : RailChan) (hc : c.state = .lowering) := enterOff_ofItself now (e.move c) (by simp [RailStep.move, hc])
    exact ⟨(off _ rfl).cfg, (off _ rfl).inactive rfl⟩
  · exact ⟨rfl, rfl⟩

end Events

/-- A transition that takes a rail down from any state: the record stands, the rail is not active after it, and it is no cut. -/
structure TakesDown (f : RailStep → RailStep) : Prop where
  cfg : ∀ c, (f (.of c)).rc.cfg = c.cfg
  inactive : ∀ c, (f (.of c)).rc.state.active = false
  uncut : ∀ c, (f (.of c)).ownCut = false

theorem enterLowering_takesDown (now : Uptime) : TakesDown (enterLowering now) :=
  ⟨fun _ => (enterLowering_ends now _).1, fun _ => (enterLowering_ends now _).2, enterLowering_not_cut now⟩

/-- KILL# lowers the active rails, and no other rail is active (R72). -/
theorem railKill_takesDown (now : Uptime) : TakesDown (railKill now) := by
  have low := enterLowering_takesDown now
  have ends (c : RailChan) : (railKill now (.of c)).rc.cfg = c.cfg ∧ (railKill now (.of c)).rc.state.active = false
      ∧ (railKill now (.of c)).ownCut = false := by
    unfold railKill
    split
    · exact ⟨low.cfg c, low.inactive c, low.uncut c⟩
    · exact ⟨low.cfg c, low.inactive c, low.uncut c⟩
    · exact ⟨rfl, rfl, rfl⟩
    · rename_i notRamping notOn _
      refine ⟨rfl, Bool.eq_false_iff.mpr fun active => ?_, rfl⟩
      unfold RailState.active at active
      split at active <;> contradiction
  exact ⟨fun c => (ends c).1, fun c => (ends c).2.1, fun c => (ends c).2.2⟩

/-- A rail written is OFF or UNUSED with the new record (R8). -/
theorem railWrite_ends (now : Uptime) (cfg : RailCfg) (z : Zone) (oc : Bool) (e : RailStep) :
    (railWrite now cfg z oc e).rc.cfg = cfg ∧ (railWrite now cfg z oc e).rc.state.active = false := by
  have compared (x : RailStep) : x.OfItself (comparedAfresh now z oc x) := by
    unfold comparedAfresh
    split
    · exact .of_same rfl rfl rfl
    · exact .trans (e' := x.withRc { x.rc with zone := z, overCurrent := oc }) (.of_same rfl rfl rfl) (railZoneArrival_ofItself now _)
  have arrived (x : RailStep) : x.OfItself (writtenArrival now z oc x) :=
    .trans (e' := x.withRc ((x.rc.noteZone z).noteFlag oc)) (.of_same rfl rfl rfl) (compared _)
  have judged (x : RailStep) : x.OfItself (writtenJudge now x) := by
    unfold writtenJudge
    split
    · exact .trans (e' := x.withRc { x.rc with armBackfeed := true }) (.of_same rfl rfl rfl) (judgeOff_ofItself now _)
    · exact .refl x
  have written : (writtenChannel cfg e.rc).state.active = false := by
    simp only [writtenChannel]
    split <;> rfl
  have whole := (arrived (e.withRc (writtenChannel cfg e.rc))).trans (judged _)
  exact ⟨whole.cfg, whole.inactive written⟩

/-! ### Descendants -/

theorem mem_allRails (r : Rail) : r ∈ allRails := List.mem_finRange r

/-- One rail looked at in the search for the descendants of rail r (R62). -/
def State.addDescendant (s : State) (r : Rail) (found : RailSet) (x : Rail) : RailSet :=
  if (s.rail x).cfg.parents.any (fun p => p == r || RailSet.has found p) then RailSet.add found x else found

theorem descendants_eq_foldl (s : State) (r : Rail) : s.descendants r = allRails.foldl (s.addDescendant r) 0 := rfl

theorem has_addDescendant (s : State) (r : Rail) (found : RailSet) (x y : Rail) :
    RailSet.has (s.addDescendant r found x) y = true
      ↔ RailSet.has found y = true ∨ x = y ∧ ∃ p ∈ (s.rail x).cfg.parents, p = r ∨ RailSet.has found p = true := by
  unfold State.addDescendant
  split <;> simp_all [has_add]

theorem has_foldl_addDescendant_of_not_mem (s : State) (r : Rail) {l : List Rail} {y : Rail} (h : y ∉ l) (found : RailSet) :
    RailSet.has (l.foldl (s.addDescendant r) found) y = true ↔ RailSet.has found y = true := by
  induction l generalizing found with
  | nil => rfl
  | cons x l ih =>
    obtain ⟨hx, hl⟩ := not_or.mp (mt List.mem_cons.mpr h)
    rw [List.foldl_cons, ih hl, has_addDescendant]
    simp [Ne.symm hx]

/-- With parents below their children the ascending search finds each descendant: a rail is one when a parent of it is the rail or a descendant
(R58, R62). -/
theorem has_descendants {s : State} (hb : s.parentsBelow) (r x : Rail) :
    RailSet.has (s.descendants r) x = true
      ↔ ∃ p ∈ (s.rail x).cfg.parents, p = r ∨ RailSet.has (s.descendants r) p = true := by
  obtain ⟨before, after, parts⟩ := List.append_of_mem (mem_allRails x)
  have sorted : (before ++ x :: after).Pairwise (· < ·) := parts ▸ List.pairwise_lt_finRange 16
  obtain ⟨-, tailSorted, cross⟩ := List.pairwise_append.mp sorted
  have above := (List.pairwise_cons.mp tailSorted).1
  have notBefore : x ∉ before := fun h => lt_irrefl x (cross x h x (by simp))
  have notAfter : x ∉ after := fun h => lt_irrefl x (above x h)
  have parentFound (p : Rail) (hp : p ∈ (s.rail x).cfg.parents) :
      RailSet.has (s.descendants r) p = true ↔ RailSet.has (before.foldl (s.addDescendant r) 0) p = true := by
    have hlt := hb x p hp
    have hnot : p ∉ x :: after := by
      rintro (_ | ⟨_, h⟩)
      · exact lt_irrefl _ hlt
      · exact lt_asymm hlt (above p h)
    rw [descendants_eq_foldl, parts, List.foldl_append, has_foldl_addDescendant_of_not_mem s r hnot]
  have empty : ¬ RailSet.has (before.foldl (s.addDescendant r) 0) x = true := by
    rw [has_foldl_addDescendant_of_not_mem s r notBefore]
    simp
  have self : RailSet.has (s.descendants r) x = true
      ↔ ∃ p ∈ (s.rail x).cfg.parents, p = r ∨ RailSet.has (before.foldl (s.addDescendant r) 0) p = true := by
    rw [descendants_eq_foldl, parts, List.foldl_append, List.foldl_cons, has_foldl_addDescendant_of_not_mem s r notAfter,
      has_addDescendant]
    exact ⟨fun h => (h.resolve_left empty).2, fun h => .inr ⟨rfl, h⟩⟩
  exact self.trans (exists_congr fun p => and_congr_right fun hp => or_congr_right (parentFound p hp).symm)

theorem descendants_congr {s t : State} (h : ∀ x, (t.rail x).cfg = (s.rail x).cfg) (r : Rail) : t.descendants r = s.descendants r := by
  simp only [State.descendants, h]

/-- A rail that is not ON has no active descendant (R61). -/
theorem descendant_inactive {s : State} (hb : s.parentsBelow) (ho : s.parentsOn) {r : Rail} (hr : (s.rail r).state ≠ .on) (x : Rail)
    (hx : RailSet.has (s.descendants r) x = true) : (s.rail x).state.active = false := by
  induction x using WellFoundedLT.induction with
  | ind x ih =>
    obtain ⟨p, hp, found⟩ := (has_descendants hb r x).mp hx
    refine Bool.eq_false_iff.mpr fun active => ?_
    have hon := ho x p active hp
    obtain rfl | found := found
    · exact hr hon
    · simpa [hon, RailState.active] using ih p (hb x p hp) found

/-! ### A rail event and its cascade -/

/-- The part after a rail's own transition and its records, before the cascade (R43). -/
def eventState (r : Rail) (f : RailStep → RailStep) (d : Delta) : State :=
  logDecls r (f (.of (d.s.rail r))).decls (d.s.setRail r (f (.of (d.s.rail r))).rc)

section Event

variable {r : Rail} {f : RailStep → RailStep} {d : Delta} {x : Rail}

theorem eventState_rail : (eventState r f d).rail x = if r = x then (f (.of (d.s.rail r))).rc else d.s.rail x := by
  simp [eventState, logDecls_rail]

theorem onRail_rail : (onRail r f d).s.rail x =
    if (f (.of (d.s.rail r))).ownCut = true ∧ RailSet.has ((eventState r f d).descendants r) x = true
        ∧ ((eventState r f d).rail x).state.active = true
    then latch .cascade (cutTo d.s.now .locked ((eventState r f d).rail x)) else (eventState r f d).rail x := by
  rw [onRail, commit_rail, eventState_rail]; rfl

theorem onRail_cfg : ((onRail r f d).s.rail x).cfg = ((eventState r f d).rail x).cfg := by
  rw [onRail_rail]
  split
  · exact cutTo_cfg _ _ _
  · rfl

/-- A rail that the cascade spares is as the rail's own transition left it. -/
theorem onRail_rail_of_spared
    (h : ¬ ((f (.of (d.s.rail r))).ownCut = true ∧ RailSet.has ((eventState r f d).descendants r) x = true)) :
    (onRail r f d).s.rail x = (eventState r f d).rail x := by
  rw [onRail_rail, if_neg]
  tauto

/-- A rail that is active after an event has been spared by its cascade (R62, R63). -/
theorem spared_of_active (h : ((onRail r f d).s.rail x).state.active = true) :
    ¬ ((f (.of (d.s.rail r))).ownCut = true ∧ RailSet.has ((eventState r f d).descendants r) x = true) := by
  rintro ⟨cut, found⟩
  rw [onRail_rail] at h
  split at h
  · simp [latch, cutTo_state, RailState.active] at h
  · tauto

end Event

/-- A rail event as the network allows it: new parents lie below the rail; an active rail had its parents before or they are ON; a rail
that was ON stays ON or is cut by its own fault. -/
structure State.Allows (s : State) (r : Rail) (e : RailStep) : Prop where
  below : ∀ p ∈ e.rc.cfg.parents, p ∈ (s.rail r).cfg.parents ∨ p < r
  rises : e.rc.state.active = true →
    ∀ p ∈ e.rc.cfg.parents, (s.rail r).state.active = true ∧ p ∈ (s.rail r).cfg.parents ∨ (s.rail p).state = .on
  drops : (s.rail r).state = .on → e.ownCut = true ∨ e.rc.state = .on

theorem RailStep.OfItself.allowed {s : State} {r : Rail} {e : RailStep} (h : (RailStep.of (s.rail r)).OfItself e) : s.Allows r e where
  below p hp := .inl (by rw [h.cfg] at hp; exact hp)
  rises ha p hp := .inl ⟨h.rises ha, by rw [h.cfg] at hp; exact hp⟩
  drops hs := h.drops (.inr hs)

/-- A rail that was not ON, raised while its parents are ON (R14, R52). -/
theorem allows_raised {s : State} {r : Rail} {e : RailStep} (hc : e.rc.cfg = (s.rail r).cfg) (hp : s.allParentsOn r)
    (hn : (s.rail r).state ≠ .on) : s.Allows r e where
  below p h := .inl (by rw [hc] at h; exact h)
  rises _ p h := .inr (hp p (by rw [hc] at h; exact h))
  drops hs := absurd hs hn

section Allowed

variable {r : Rail} {f : RailStep → RailStep} {d : Delta}

theorem eventState_parentsBelow (h : d.s.Allows r (f (.of (d.s.rail r)))) (hb : d.s.parentsBelow) :
    (eventState r f d).parentsBelow := by
  intro x p hp
  rw [eventState_rail] at hp
  split at hp
  · rename_i hx; subst hx
    exact (h.below p hp).elim (hb r p) id
  · exact hb x p hp

theorem onRail_parentsBelow (h : d.s.Allows r (f (.of (d.s.rail r)))) (hb : d.s.parentsBelow) : (onRail r f d).s.parentsBelow :=
  fun x p hp => eventState_parentsBelow h hb x p (by rwa [onRail_cfg] at hp)

/-- An allowed event keeps the law of active rails: what it leaves active is no descendant of a rail that it cut. -/
theorem onRail_parentsOn (h : d.s.Allows r (f (.of (d.s.rail r)))) (hb : d.s.parentsBelow) (ho : d.s.parentsOn) :
    (onRail r f d).s.parentsOn := by
  intro x p active hp
  have hb' := eventState_parentsBelow h hb
  have spared := spared_of_active active
  rw [onRail_cfg] at hp
  rw [onRail_rail_of_spared spared] at active
  have sparedParent : ¬ ((f (.of (d.s.rail r))).ownCut = true ∧ RailSet.has ((eventState r f d).descendants r) p = true) :=
    fun ⟨cut, found⟩ => spared ⟨cut, (has_descendants hb' r x).mpr ⟨p, hp, .inr found⟩⟩
  rw [onRail_rail_of_spared sparedParent, eventState_rail]
  have hlt := hb' x p hp
  have child (hpr : p = r) : (f (.of (d.s.rail r))).ownCut ≠ true :=
    fun cut => spared ⟨cut, (has_descendants hb' r x).mpr ⟨p, hp, .inl hpr⟩⟩
  rw [eventState_rail] at active hp
  by_cases hx : r = x
  · subst hx
    rw [if_pos rfl] at active hp
    rw [if_neg hlt.ne']
    exact (h.rises active p hp).elim (fun was => ho r p was.1 was.2) id
  · rw [if_neg hx] at active hp
    have hon := ho x p active hp
    split
    · rename_i hrp; subst hrp
      exact (h.drops hon).resolve_left (child rfl)
    · exact hon

end Allowed

/-! ### Several rails in one command -/

/-- Rails taken down one after another by one transition: LOWER_GROUP and KILL# (R70, R72). -/
def downAll (f : Uptime → RailStep → RailStep) (l : List Rail) (d : Delta) : Delta := l.foldl (fun d r => onRail r (f d.s.now) d) d

theorem onRail_rail_of_takesDown {f : RailStep → RailStep} (hf : TakesDown f) (a : Rail) (d : Delta) (r : Rail) :
    (onRail a f d).s.rail r = if a = r then (f (.of (d.s.rail a))).rc else d.s.rail r :=
  commit_rail_of_not_cut a _ d (hf.uncut _) r

/-- Taking rails down leaves every record, leaves none of them active, and leaves the other rails alone. -/
theorem downAll_rail {f : Uptime → RailStep → RailStep} (hf : ∀ now, TakesDown (f now)) (l : List Rail) (d : Delta) (r : Rail) :
    ((downAll f l d).s.rail r).cfg = (d.s.rail r).cfg ∧ (r ∈ l → ((downAll f l d).s.rail r).state.active = false)
      ∧ (r ∉ l → (downAll f l d).s.rail r = d.s.rail r) := by
  induction l generalizing d with
  | nil => exact ⟨rfl, fun h => absurd h (by simp), fun _ => rfl⟩
  | cons a l ih =>
    obtain ⟨cfg, down, other⟩ := ih (onRail a (f d.s.now) d)
    have first := onRail_rail_of_takesDown (hf d.s.now) a d r
    refine ⟨cfg.trans ?_, fun h => ?_, fun h => ?_⟩
    · rw [first]
      split
      · rename_i e; subst e; exact (hf _).cfg _
      · rfl
    · by_cases hl : r ∈ l
      · exact down hl
      · obtain rfl : r = a := (List.mem_cons.mp h).resolve_right hl
        have lowered := other hl
        rw [first, if_pos rfl] at lowered
        exact (congrArg (fun c => c.state.active) lowered).trans ((hf _).inactive _)
    · obtain ⟨hne, hl⟩ := not_or.mp (mt List.mem_cons.mpr h)
      exact (other hl).trans (first.trans (if_neg (Ne.symm hne)))

theorem doRaise_cfg (a : Rail) (d : Delta) (r : Rail) : ((doRaise a d).s.rail r).cfg = (d.s.rail r).cfg := by
  rw [doRaise, onRail_cfg, eventState_rail]
  split
  · rename_i e; subst e; exact railRaise_cfg _ _ _
  · rfl

theorem raiseAll_cfg (l : List Rail) (d : Delta) (r : Rail) :
    ((l.foldl (fun d r => doRaise r d) d).s.rail r).cfg = (d.s.rail r).cfg := by
  induction l generalizing d with
  | nil => rfl
  | cons a l ih => exact (ih (doRaise a d)).trans (doRaise_cfg a d r)

/-- The raising of a rail that was not ON takes nothing that is ON with it. -/
theorem doRaise_keeps_on {d : Delta} (hb : d.s.parentsBelow) (ho : d.s.parentsOn) {a p : Rail} (ha : (d.s.rail a).state ≠ .on)
    (hp : (d.s.rail p).state = .on) : ((doRaise a d).s.rail p).state = .on := by
  have hne : a ≠ p := fun e => ha (e ▸ hp)
  have same : (eventState a (railRaise d.s.now (d.s.boundAsserted a)) d).descendants a = d.s.descendants a := by
    refine descendants_congr (fun x => ?_) a
    rw [eventState_rail]
    split
    · rename_i e; subst e; exact railRaise_cfg _ _ _
    · rfl
  rw [doRaise, onRail_rail_of_spared, eventState_rail, if_neg hne]
  · exact hp
  · rintro ⟨-, found⟩
    rw [same] at found
    simpa [hp, RailState.active] using descendant_inactive hb ho ha p found

/-- Rails that are OFF with their parents ON are raised one after another: what is raised takes no parent of the next with it (R68). -/
theorem raiseAll_parentsOn (l : List Rail) (d : Delta) (hn : l.Nodup) (h : ∀ r ∈ l, (d.s.rail r).state = .off ∧ d.s.allParentsOn r)
    (hb : d.s.parentsBelow) (ho : d.s.parentsOn) :
    (l.foldl (fun d r => doRaise r d) d).s.parentsOn := by
  induction l generalizing d with
  | nil => exact ho
  | cons a l ih =>
    obtain ⟨hal, hl⟩ := List.nodup_cons.mp hn
    obtain ⟨off, on⟩ := h a (by simp)
    have notOn : (d.s.rail a).state ≠ .on := by simp [off]
    have allowed := allows_raised (railRaise_cfg d.s.now (.of (d.s.rail a)) (d.s.boundAsserted a)) on notOn
    refine ih (doRaise a d) hl (fun r hr => ?_) (onRail_parentsBelow allowed hb) (onRail_parentsOn allowed hb ho)
    obtain ⟨offr, onr⟩ := h r (by simp [hr])
    have still : (doRaise a d).s.rail r = d.s.rail r :=
      onRail_rail_of_not_active a _ d r (fun e => hal (e ▸ hr)) (by rw [offr]; rfl)
    rw [State.allParentsOn, still]
    exact ⟨offr, fun p hp => doRaise_keeps_on hb ho notOn (onr p hp)⟩

/-! ### What the network sees of a command -/

/-- One event as the network sees it. -/
inductive NetEvent : State → State → Prop where
  | same {s t : State} (hc : ∀ r, (t.rail r).cfg = (s.rail r).cfg) (hs : ∀ r, (t.rail r).state = (s.rail r).state) : NetEvent s t
  | rail (r : Rail) (f : RailStep → RailStep) (d : Delta) (h : d.s.Allows r (f (.of (d.s.rail r)))) : NetEvent d.s (onRail r f d).s
  | raise (l : List Rail) (d : Delta) (hn : l.Nodup) (h : ∀ r ∈ l, (d.s.rail r).state = .off ∧ d.s.allParentsOn r) :
      NetEvent d.s (l.foldl (fun d r => doRaise r d) d).s
  | down (f : Uptime → RailStep → RailStep) (l : List Rail) (d : Delta) (hf : ∀ now, TakesDown (f now))
      (h : ∀ r ∈ l, ∀ x, d.s.childActive r x → x ∈ l) : NetEvent d.s (downAll f l d).s
  | reset (s : State) : NetEvent s (resetBlocks s)

/-- A sequence of events as the network sees them. -/
abbrev NetEvents : State → State → Prop := Relation.ReflTransGen NetEvent

theorem NetEvent.events {s t : State} (h : NetEvent s t) : NetEvents s t := .single h

theorem resetBlocks_rail (s : State) (r : Rail) : (resetBlocks s).rail r = resetRail s.freeIndex r (s.rail r) := by
  simp [resetBlocks, State.rail]

/-- Parents stay below their children (R58): the only new parents are those of a rail event, which lie below. -/
theorem NetEvent.parentsBelow {s t : State} (h : NetEvent s t) (hb : s.parentsBelow) : t.parentsBelow := by
  cases h with
  | same hc _ => exact fun r p hp => hb r p (by rwa [hc] at hp)
  | rail r f d h => exact onRail_parentsBelow h hb
  | raise l d _ _ => exact fun r p hp => hb r p (by rwa [raiseAll_cfg] at hp)
  | down f l d hf _ => exact fun r p hp => hb r p (by rwa [(downAll_rail hf l d r).1] at hp)
  | reset => exact fun r p hp => by simp [resetBlocks_rail, resetRail, RailChan.atReset, RailCfg.reset, RailCfg.parents] at hp

/-- Active rails keep standing on parents that are ON (R61). -/
theorem NetEvent.parentsOn {s t : State} (h : NetEvent s t) (hb : s.parentsBelow) (ho : s.parentsOn) : t.parentsOn := by
  cases h with
  | same hc hs => exact fun r p ha hp => by rw [hs] at ha ⊢; rw [hc] at hp; exact ho r p ha hp
  | rail r f d h => exact onRail_parentsOn h hb ho
  | raise l d hn h => exact raiseAll_parentsOn l d hn h hb ho
  | down f l d hf h =>
    intro r p ha hp
    obtain ⟨cfg, down, other⟩ := downAll_rail hf l d r
    have hr : r ∉ l := fun hr => Bool.eq_false_iff.mp (down hr) ha
    rw [other hr] at ha hp
    have hpl : p ∉ l := fun hpl => hr (h p hpl r ⟨hp, ha⟩)
    rw [(downAll_rail hf l d p).2.2 hpl]
    exact ho r p ha hp
  | reset => exact fun r p ha => by simp [resetBlocks_rail, resetRail, RailChan.atReset, RailState.active] at ha

theorem NetEvents.parentsBelow {s t : State} (h : NetEvents s t) (hb : s.parentsBelow) : t.parentsBelow := by
  induction h with
  | refl => exact hb
  | tail _ he ih => exact he.parentsBelow ih

theorem NetEvents.parentsOn {s t : State} (h : NetEvents s t) (hb : s.parentsBelow) (ho : s.parentsOn) : t.parentsOn := by
  induction h with
  | refl => exact ho
  | tail hs he ih => exact he.parentsOn (NetEvents.parentsBelow hs hb) ih

/-- Nothing that the network sees has moved. -/
theorem NetEvents.of_rail {s t : State} (h : ∀ r, t.rail r = s.rail r) : NetEvents s t :=
  (NetEvent.same (fun r => by rw [h]) (fun r => by rw [h])).events

/-- An event of a rail that is of itself. -/
theorem ofItself_net {r : Rail} {f : RailStep → RailStep} {d : Delta} (h : (RailStep.of (d.s.rail r)).OfItself (f (.of (d.s.rail r)))) :
    NetEvents d.s (onRail r f d).s :=
  (NetEvent.rail r f d h.allowed).events

/-! ### Rail and group commands -/

theorem lowestRail_eq_none {p : Rail → Bool} : lowestRail p = none ↔ ∀ x, p x = false := by
  simp [lowestRail, mem_allRails]

theorem allParentsOn_of_parentNotOn {s : State} {r : Rail} (h : s.parentNotOn r = none) : s.allParentsOn r := by
  intro p hp
  simpa [hp] using lowestRail_eq_none.mp h p

/-- A command that the network follows when it is carried out on rails each of which would be accepted: single, or on a group. -/
theorem railCommandOf_net {judge : State → Rail → Verdict} {act : Rail → Delta → Delta} {s : State}
    (h : ∀ l : List Rail, l.Nodup → (∀ r ∈ l, (judge s r).code = .accepted) → NetEvents s (l.foldl (fun d r => act r d) (Delta.of s)).s)
    (b : Byte) : NetEvents s (railCommandOf judge act b s).2.s := by
  unfold railCommandOf railCommand
  split
  · exact .refl
  · rename_i r _
    dsimp only
    split
    · rename_i ha
      exact h [r] (by simp) (by simpa using ha)
    · exact .refl

theorem groupEach_net {judge : State → Rail → Verdict} {act : Rail → Delta → Delta} {s : State}
    (h : ∀ l : List Rail, l.Nodup → (∀ r ∈ l, (judge s r).code = .accepted) → NetEvents s (l.foldl (fun d r => act r d) (Delta.of s)).s)
    (tag mask : BitVec 4) : NetEvents s (groupEach judge act tag mask s).2.s := by
  unfold groupEach
  split
  · exact .refl
  · exact h _ ((selected_nodup s tag mask).filter _) fun r hr => by simpa using (List.mem_filter.mp hr).2

theorem raiseAccepted_net (s : State) (l : List Rail) (hn : l.Nodup) (h : ∀ r ∈ l, (judgeRaise s r).code = .accepted) :
    NetEvents s (l.foldl (fun d r => doRaise r d) (Delta.of s)).s := by
  refine (NetEvent.raise l (Delta.of s) hn fun r hr => ?_).events
  obtain ⟨off, -, on, -⟩ := judgeRaise_accepted (h r hr)
  exact ⟨off, allParentsOn_of_parentNotOn on⟩

theorem lowerAccepted_net (s : State) (l : List Rail) (_ : l.Nodup) (h : ∀ r ∈ l, (judgeLower s r).code = .accepted) :
    NetEvents s (l.foldl (fun d r => doLower r d) (Delta.of s)).s := by
  refine (NetEvent.down enterLowering l (Delta.of s) enterLowering_takesDown fun r hr x ⟨hx, ha⟩ => ?_).events
  have childless := lowestRail_eq_none.mp (judgeLower_accepted (h r hr)).2 x
  replace hx : (s.rail x).cfg.names r = true := mem_parents.mp hx
  replace ha : (s.rail x).state.active = true := ha
  simp [hx, ha] at childless

/-- Rails that are not active cleared one after another: each clearing is of its rail alone. -/
theorem clearAll_net (l : List Rail) (d : Delta) (hn : l.Nodup) (h : ∀ r ∈ l, (d.s.rail r).state.active = false) :
    NetEvents d.s (l.foldl (fun d r => doClear r d) d).s := by
  induction l generalizing d with
  | nil => exact .refl
  | cons a l ih =>
    obtain ⟨hal, hl⟩ := List.nodup_cons.mp hn
    have inactive := h a (by simp)
    have notOn : (d.s.rail a).state ≠ .on := fun on => by simp [on, RailState.active] at inactive
    refine (ofItself_net (railClear_ofItself _ _ notOn)).trans (ih (doClear a d) hl fun r hr => ?_)
    have other := h r (by simp [hr])
    rw [doClear, onRail_rail_of_not_active a _ d r (fun e => hal (e ▸ hr)) other, other]

theorem clearAccepted_net (s : State) (l : List Rail) (hn : l.Nodup) (h : ∀ r ∈ l, (judgeClear s r).code = .accepted) :
    NetEvents s (l.foldl (fun d r => doClear r d) (Delta.of s)).s := by
  refine clearAll_net l (Delta.of s) hn fun r hr => ?_
  obtain ⟨faulted | locked, -⟩ := judgeClear_accepted (h r hr)
  · exact congrArg RailState.active faulted
  · exact congrArg RailState.active locked

/-- LOWER_GROUP takes every active selected rail down, or none: no active child is left outside (R70). -/
theorem groupLower_net (tag mask : BitVec 4) (s : State) : NetEvents s (groupLower tag mask s).2.s := by
  unfold groupLower
  split
  · exact .refl
  · rename_i sel hsel
    split
    · exact .refl
    · rename_i noBlock
      split
      · exact .refl
      · refine (NetEvent.down enterLowering _ (Delta.of s) enterLowering_takesDown fun r hr x ⟨hx, ha⟩ => ?_).events
        obtain ⟨hsel, hact⟩ := List.mem_filter.mp hr
        replace hx : (s.rail x).cfg.names r = true := mem_parents.mp hx
        replace ha : (s.rail x).state.active = true := ha
        refine List.mem_filter.mpr ⟨by_contra fun hout => ?_, ha⟩
        have unblocked := lowestRail_eq_none.mp noBlock x
        simp only [List.contains_eq_mem, hout, ha, decide_false, Bool.not_false, Bool.true_and, List.any_eq_false] at unblocked
        exact unblocked r hsel (by rw [hact, hx]; rfl)

/-- The command of an issuing step (R101). -/
theorem issue_net (kind : StepKind) (st : StepRec) (s : State) : NetEvents s (issue kind st s).2.s := by
  unfold issue
  split
  · split
    · exact groupEach_net (raiseAccepted_net s) _ _
    · exact railCommandOf_net (raiseAccepted_net s) _
  · split
    · exact groupLower_net _ _ s
    · exact railCommandOf_net (lowerAccepted_net s) _
  · split
    · exact groupEach_net (clearAccepted_net s) _ _
    · exact railCommandOf_net (clearAccepted_net s) _
  · exact .refl

/-- Of the moves of the engine and the hand-on, only the commands of steps touch rails. -/
theorem Move.net {s t : State} (h : Move s t) : NetEvents s t := by
  cases h with
  | command kind st => exact issue_net kind st s
  | record kind role c => exact .of_rail (logEngine_rail kind role c s)
  | _ => exact .of_rail fun _ => rfl

theorem Moves.net {s t : State} (h : Moves s t) : NetEvents s t := by
  induction h with
  | refl => exact .refl
  | tail _ hm ih => exact ih.trans hm.net

/-! ### Commands of the host -/

theorem hostCommand_net (code : Byte) (owner : State → Verdict × State) (s : State) (h : ∀ s, NetEvents s (owner s).2) :
    NetEvents s (hostCommand code owner s) := by
  unfold hostCommand busWrite
  split
  · exact .refl
  · have owned : NetEvents s (owner (setCmd code s)).2 := (NetEvents.of_rail (setCmd_rail s code)).trans (h _)
    exact owned.trans (NetEvents.of_rail (answer_rail _ _))

theorem ownRails_net {f : State → Verdict × Delta} {s : State} (h : NetEvents s (f s).2.s) : NetEvents s (ownRails f s).2 :=
  h.trans (finish_moves (f s).2).net

theorem groupCommandOf_net {run : BitVec 4 → BitVec 4 → State → Verdict × Delta} {s : State} (h : ∀ t m, NetEvents s (run t m s).2.s)
    (a b : Byte) : NetEvents s (groupCommandOf run a b s).2.s := by
  unfold groupCommandOf
  split
  · exact .refl
  · exact h _ _

/-- The parents of a record that an accepted WRITE_RAIL copies lie below the rail (R6, R7 check 4). -/
theorem judgeWrite_accepted {s : State} {r : Rail} (h : (judgeWrite s r).code = .accepted) :
    ((s.rail r).state = .off ∨ (s.rail r).state = .unused) ∧ ∀ p ∈ (decodeCfg s.bus.staging).parents, p < r := by
  unfold judgeWrite at h
  split at h
  · cases h
  · rename_i hs
    split at h
    · cases h
    · rename_i hc
      refine ⟨by tauto, fun p hp => ?_⟩
      rw [configCheck_eq_find] at hc
      have four := List.find?_eq_none.mp hc 4 (by decide)
      rw [← checkFails_four] at four
      simpa using List.any_eq_false.mp (Bool.eq_false_iff.mpr four) p hp

theorem applyWrite_net (s : State) (r : Rail) (h : (judgeWrite s r).code = .accepted) : NetEvents s (applyWrite s r) := by
  obtain ⟨hs, below⟩ := judgeWrite_accepted h
  have notOn : (s.rail r).state ≠ .on := by rcases hs with hs | hs <;> simp [hs]
  have written : NetEvents (nextFree s) (writeDelta s r).s := by
    refine (NetEvent.rail r _ (Delta.of (nextFree s)) ⟨?_, ?_, fun on => absurd on notOn⟩).events
    · intro p hp
      rw [(railWrite_ends _ _ _ _ _).1] at hp
      exact .inr (below p hp)
    · intro active
      exact absurd active (Bool.eq_false_iff.mp (railWrite_ends _ _ _ _ _).2)
  have handedOn : NetEvents s (finish (writeDelta s r)) :=
    (NetEvents.of_rail (nextFree_rail s)).trans (written.trans (finish_moves _).net)
  exact handedOn.trans (NetEvents.of_rail (recomputeFlt_rail _))

/-- What the network sees of each of the eighteen commands. -/
theorem ownerOf_net (c : Command) (s : State) : NetEvents s (ownerOf c s).2 := by
  cases c
  case raise => exact ownRails_net (railCommandOf_net (raiseAccepted_net s) _)
  case lower => exact ownRails_net (railCommandOf_net (lowerAccepted_net s) _)
  case clear => exact ownRails_net (railCommandOf_net (clearAccepted_net s) _)
  case raiseGroup => exact ownRails_net (groupCommandOf_net (groupEach_net (raiseAccepted_net s)) _ _)
  case lowerGroup => exact ownRails_net (groupCommandOf_net (fun t m => groupLower_net t m s) _ _)
  case clearGroup => exact ownRails_net (groupCommandOf_net (groupEach_net (clearAccepted_net s)) _ _)
  case writeRail =>
    simp only [ownerOf, hostWriteRail]
    split
    · exact .refl
    · dsimp only
      split
      · rename_i h; exact applyWrite_net s _ h
      · exact .refl
  case run => exact (hostRun_moves s).net
  case cancel => exact (hostCancel_moves s).net
  case release => exact (hostRelease_moves s).net
  case abort => exact (hostAbort_moves s).net
  case engineReset =>
    refine (stopRun_moves .reset s).net.trans (NetEvents.of_rail fun r => ?_)
    simp only [ownerOf, hostEngineReset, emptyDefining, setFlag_rail]
    split
    · exact emptyPlan_rail _ _ r
    · rfl
  case loadRail =>
    refine .of_rail fun r => ?_
    simp only [ownerOf, hostLoadRail]
    split <;> rfl
  case define =>
    refine .of_rail fun r => ?_
    simp only [ownerOf, hostDefine, judgeDefine]
    repeat' split
    all_goals rfl
  case commit =>
    refine .of_rail fun r => ?_
    simp only [ownerOf, hostCommit]
    repeat' split
    all_goals rfl
  case erase =>
    refine .of_rail fun r => ?_
    simp only [ownerOf, hostErase]
    repeat' split
    case isFalse => exact emptyPlan_rail _ _ r
    all_goals rfl
  case logPop =>
    refine .of_rail fun r => ?_
    simp only [ownerOf, hostLogPop]
    split <;> rfl
  case shedAck =>
    refine .of_rail fun r => ?_
    simp only [ownerOf, hostShedAck]
    repeat' split
    all_goals rfl

theorem writeCmd_net (code : Byte) (s : State) : NetEvents s (writeCmd code s) := by
  unfold writeCmd
  split
  · exact hostCommand_net _ _ s (ownerOf_net _)
  · exact hostCommand_net _ _ s fun s => .refl

/-! ### The other commands -/

theorem writeEvt_rail (v : Byte) (s : State) (r : Rail) : (writeEvt v s).rail r = s.rail r := rfl
theorem writeEven_rail (v : Byte) (s : State) (r : Rail) : (writeEven v s).rail r = s.rail r := rfl
theorem writeRchg_rail (upper : Bool) (v : Byte) (s : State) (r : Rail) : (writeRchg upper v s).rail r = s.rail r := rfl
theorem writeEcfg_rail (v : Byte) (s : State) (r : Rail) : (writeEcfg v s).rail r = s.rail r := rfl
theorem writeTptr_rail (v : Byte) (s : State) (r : Rail) : (writeTptr v s).rail r = s.rail r := rfl
theorem writeTsel_rail (v : Byte) (s : State) (r : Rail) : (writeTsel v s).rail r = s.rail r := takeCopy_rail _ r
theorem writeTidx_rail (v : Byte) (s : State) (r : Rail) : (writeTidx v s).rail r = s.rail r := takeCopy_rail _ r
theorem writeArg_rail (i : Fin 4) (v : Byte) (s : State) (r : Rail) : (writeArg i v s).rail r = s.rail r := by
  unfold writeArg
  split <;> rfl

theorem busWrite_net {f : State → State} (h : ∀ s r, (f s).rail r = s.rail r) (s : State) : NetEvents s (busWrite f s) := by
  unfold busWrite
  split
  · exact .refl
  · exact .of_rail (h s)

theorem busRead_net {f : State → Byte × State} (h : ∀ s r, (f s).2.rail r = s.rail r) (s : State) : NetEvents s (busRead f s) := by
  unfold busRead
  split
  · exact .of_rail fun _ => rfl
  · exact .of_rail (h s)

theorem writeLocation_net (addr : Addr) (v : Byte) (s : State) : NetEvents s (writeLocation addr v s) := by
  unfold writeLocation
  split
  · exact busWrite_net (writeEvt_rail v) s
  · exact busWrite_net (writeEven_rail v) s
  · exact busWrite_net (writeRchg_rail false v) s
  · exact busWrite_net (writeRchg_rail true v) s
  · exact writeCmd_net v s
  · exact busWrite_net (writeArg_rail 0 v) s
  · exact busWrite_net (writeArg_rail 1 v) s
  · exact busWrite_net (writeArg_rail 2 v) s
  · exact busWrite_net (writeArg_rail 3 v) s
  · exact busWrite_net (writeEcfg_rail v) s
  · exact busWrite_net (writeTsel_rail v) s
  · exact busWrite_net (writeTidx_rail v) s
  · exact busWrite_net (writeTptr_rail v) s
  · exact busWrite_net (writeTdata_rail v) s
  · exact .refl

/-- An event of a rail of itself, handed on. -/
theorem finish_onRail_net {r : Rail} {f : RailStep → RailStep} {s : State} (h : ∀ e, RailStep.OfItself e (f e)) :
    NetEvents s (finish (onRail r f (Delta.of s))) :=
  (ofItself_net (d := Delta.of s) (h _)).trans (finish_moves _).net

/-- A retry is made only with the parents of the rail ON (R51). -/
theorem retryExpiry_net (r : Rail) (s : State) : NetEvents s (retryExpiry r s) := by
  refine Relation.ReflTransGen.trans ?_ (finish_moves _).net
  refine (NetEvent.rail r _ (Delta.of s) ?_).events
  obtain itself | ⟨faulted, on, cfg⟩ := railRetryExpiry_cases s.now (.of (s.rail r)) (s.boundAsserted r) (s.parentNotOn r).isNone s.pins.kill
  · exact itself.allowed
  · exact allows_raised cfg (allParentsOn_of_parentNotOn (Option.isNone_iff_eq_none.mp on))
      fun h => RailState.noConfusion (faulted.symm.trans h)

theorem quietExpiry_moves (s : State) : Moves s (quietExpiry s) := by
  unfold quietExpiry
  split
  · exact .refl
  · split
    · rename_i run _ _
      exact (Move.timers s none _ _).moves.trans
        ((runSteps_moves _ _ { s := s.setEngineTimers none s.engine.stepT s.engine.holdT, reqs := [] }).trans
          ((carryOn_moves _ _).trans (finishWork_moves _)))
    · exact .refl

theorem stepTimerExpiry_moves (s : State) : Moves s (stepTimerExpiry s) := by
  have timedOut : Moves s (finishWork (carryOn { s := endWait s, reqs := [] } (.failed .awaitTimeout none))) :=
    (endWait_moves s).trans ((carryOn_moves { s := endWait s, reqs := [] } _).trans (finishWork_moves _))
  have paused (run : Run) : Moves s (finishWork (completeStep run { s := endWait s, reqs := [] })) :=
    (endWait_moves s).trans ((completeStep_moves run { s := endWait s, reqs := [] }).trans (finishWork_moves _))
  unfold stepTimerExpiry
  split
  · exact .refl
  · split
    · split
      · exact timedOut
      · exact timedOut
      · exact paused _
      · exact .refl
    · exact .refl

theorem holdExpiry_moves (s : State) : Moves s (holdExpiry s) := by
  unfold holdExpiry
  split
  · exact .refl
  · split
    · exact (carryOn_moves { s := s, reqs := [] } _).trans (finishWork_moves _)
    · exact .refl

/-- What an assertion edge of KILL# does after the rails (R72, R121). -/
theorem killRails_moves (s : State) : Moves (killRails s).s (killEffect s) := by
  have emptied : Moves (killRails s).s (emptyRequests ((stopRun .killed (killRails s).s).setEngineTimers none none none)) :=
    ((stopRun_moves .killed _).trans (Move.timers _ _ _ _).moves).trans ((Move.queue _ _).moves.trans (Move.slot _ _).moves)
  exact (emptied.trans (addChanged_list_moves _ _)).trans ((Move.shed _).moves.trans (Move.flag _ _).moves)

theorem killEffect_net (s : State) : NetEvents s (killEffect s) :=
  (NetEvent.down railKill allRails (Delta.of s) railKill_takesDown fun _ _ x _ => mem_allRails x).events.trans (killRails_moves s).net

theorem endOfReset_net (s : State) : NetEvents s (endOfReset s) := by
  have restarted : NetEvents s (setFlag .restart (resetBlocks s)) := (NetEvent.reset s).events.trans (NetEvents.of_rail fun _ => rfl)
  simp only [endOfReset]
  split
  · exact restarted.trans (killEffect_net _)
  · exact restarted

theorem xfAssertion_net (x : XfInput) (s : State) : NetEvents s (xfAssertion x s) := by
  have taken : ∀ (l : List Rail) (t : State), NetEvents t (l.foldl (fun t r => takeAssertion r t) t) := by
    intro l
    induction l with
    | nil => exact fun _ => .refl
    | cons r l ih => exact fun t => (finish_onRail_net (railXfAssert_ofItself t.now)).trans (ih _)
  unfold xfAssertion
  split_ifs
  · exact .refl
  · exact .of_rail (setXf_rail s x true)
  · exact .trans (b := { s.setXf x true with freeIndex := s.freeIndex + 1 }) (NetEvents.of_rail fun r => setXf_rail s x true r) (taken _ _)

theorem xfDeassertion_net (x : XfInput) (s : State) : NetEvents s (xfDeassertion x s) := by
  have armed (r : Rail) (t : State) : NetEvents t (takeDeassertion r t) := by
    refine (NetEvent.same (fun r' => ?_) (fun r' => ?_)).events <;>
    · simp only [takeDeassertion, setRail_rail, railXfDeassert]
      split_ifs <;> simp_all
  have taken : ∀ (l : List Rail) (t : State), NetEvents t (l.foldl (fun t r => takeDeassertion r t) t) := by
    intro l
    induction l with
    | nil => exact fun _ => .refl
    | cons r l ih => exact fun t => (armed r t).trans (ih _)
  unfold xfDeassertion
  split_ifs
  · exact .refl
  · exact .of_rail (setXf_rail s x false)
  · exact (NetEvents.of_rail (setXf_rail s x false)).trans (taken _ _)

/-- A rail replaced by one of the same record and state. -/
theorem setRail_net (s : State) (r : Rail) (c : RailChan) (hc : c.cfg = (s.rail r).cfg) (hs : c.state = (s.rail r).state) :
    NetEvents s (s.setRail r c) := by
  refine (NetEvent.same (fun r' => ?_) (fun r' => ?_)).events <;> rw [setRail_rail] <;> split
  · rename_i e; subst e; exact hc
  · rfl
  · rename_i e; subst e; exact hs
  · rfl

theorem senseVoltage_net (r : Rail) (mv : Nat) (s : State) : NetEvents s (s.senseVoltage r mv) :=
  setRail_net s r { s.rail r with senseMv := mv } rfl rfl

theorem senseCurrent_net (r : Rail) (ma : Nat) (s : State) : NetEvents s (s.senseCurrent r ma) :=
  setRail_net s r { s.rail r with senseMa := ma } rfl rfl

theorem zoneArrival_net (r : Rail) (z : Zone) (mv : Nat) (s : State) : NetEvents s (zoneArrival r z mv s) := by
  unfold zoneArrival
  split_ifs
  · exact senseVoltage_net r mv s
  · exact .refl
  · exact setRail_net s r _ rfl rfl
  · exact (senseVoltage_net r mv s).trans (finish_onRail_net fun e => takeZone_ofItself s.now e z)

theorem overCurrentArrival_net (r : Rail) (b : Bool) (ma : Nat) (s : State) : NetEvents s (overCurrentArrival r b ma s) := by
  unfold overCurrentArrival
  split_ifs
  · exact senseCurrent_net r ma s
  · exact .refl
  · exact setRail_net s r _ rfl rfl
  · exact (senseCurrent_net r ma s).trans (finish_onRail_net fun e => takeFlag_ofItself s.now e b)

/-! ### Every command -/

/-- What the network sees of any command. -/
theorem exec_net {c : Instr} {s t : State} (h : exec c s = .next t) : NetEvents s t := by
  have command (k : Command) (code : Byte) : NetEvents s (hostCommand code (ownerOf k) s) := hostCommand_net code _ s (ownerOf_net k)
  cases c <;> injection h with h <;> subst h
  case raise => exact command .raise _
  case lower => exact command .lower _
  case clear => exact command .clear _
  case raiseGroup => exact command .raiseGroup _
  case lowerGroup => exact command .lowerGroup _
  case clearGroup => exact command .clearGroup _
  case loadRail => exact command .loadRail _
  case writeRail => exact command .writeRail _
  case define => exact command .define _
  case commit => exact command .commit _
  case erase => exact command .erase _
  case run => exact command .run _
  case cancel => exact command .cancel _
  case release => exact command .release _
  case abort => exact command .abort _
  case logPop => exact command .logPop _
  case shedAck => exact command .shedAck _
  case engineReset => exact command .engineReset _
  case badCommand code => exact writeCmd_net code s
  case evtWrite v => exact busWrite_net (writeEvt_rail v) s
  case evenWrite v => exact busWrite_net (writeEven_rail v) s
  case rchgWrite u v => exact busWrite_net (writeRchg_rail u v) s
  case ecfgWrite v => exact busWrite_net (writeEcfg_rail v) s
  case tselWrite v => exact busWrite_net (writeTsel_rail v) s
  case tidxWrite v => exact busWrite_net (writeTidx_rail v) s
  case tdataRead => exact busRead_net readTdata_rail s
  case tdataWrite v => exact busWrite_net (writeTdata_rail v) s
  case upt0Read => exact busRead_net (f := readUpt0) (fun _ _ => rfl) s
  case engstLowRead => exact busRead_net (f := readEngstLow) (fun _ _ => rfl) s
  case registerWrite a v => exact writeLocation_net a v s
  case powerOnReset =>
    unfold powerOn
    split
    · exact (NetEvent.reset s).events
    · exact endOfReset_net s
  case resetAssertion =>
    unfold resetAssert
    split
    · exact .refl
    · exact (NetEvents.of_rail (setReset_rail s true)).trans (NetEvent.reset _).events
  case resetDeassertion =>
    unfold resetDeassert
    split
    · exact (NetEvents.of_rail (setReset_rail s false)).trans (endOfReset_net _)
    · exact .refl
  case killAssertionEdge =>
    unfold killAssertion
    split_ifs
    · exact .refl
    · exact .of_rail (setKill_rail s true)
    · exact (NetEvents.of_rail (setKill_rail s true)).trans (killEffect_net _)
  case killDeassertionEdge =>
    unfold killDeassertion
    split_ifs
    · exact .refl
    · exact .of_rail (setKill_rail s false)
    · exact .of_rail fun _ => rfl
  case xfAssertionEdge x => exact xfAssertion_net x s
  case xfDeassertionEdge x => exact xfDeassertion_net x s
  case pwrreqFallingEdge =>
    unfold pwrreqFalling
    split_ifs
    · exact .refl
    · exact .of_rail (setPwrreq_rail s true)
    · exact (NetEvents.of_rail (setPwrreq_rail s true)).trans (pwrRequest_moves _).net
  case pwrreqRisingEdge => exact .of_rail (setPwrreq_rail s false)
  case zoneArrival r z mv => exact zoneArrival_net r z mv s
  case overCurrentArrival r b ma => exact overCurrentArrival_net r b ma s
  case rampExpiry r => exact finish_onRail_net (railRampExpiry_ofItself s.now)
  case settleExpiry r => exact finish_onRail_net railSettleExpiry_ofItself
  case dischargeExpiry r => exact finish_onRail_net railDischargeExpiry_ofItself
  case backfeedFilterExpiry r => exact finish_onRail_net railBackfeedExpiry_ofItself
  case uvFilterExpiry r => exact finish_onRail_net (railUvExpiry_ofItself s.now)
  case ocFilterExpiry r => exact finish_onRail_net (railOcExpiry_ofItself s.now)
  case retryExpiry r => exact retryExpiry_net r s
  case quietExpiry => exact (quietExpiry_moves s).net
  case stepTimerExpiry => exact (stepTimerExpiry_moves s).net
  case holdExpiry => exact (holdExpiry_moves s).net
  case uptimeTick =>
    unfold uptimeTick
    split
    · exact .refl
    · exact .of_rail fun _ => rfl

/-- What the network sees of a step. -/
theorem step_net {s t : State} (h : step s = .next t) : NetEvents s t := by
  unfold step at h
  split at h
  · injection h with h; subst h; exact .refl
  · exact (NetEvents.of_rail (withPending_rail s _)).trans (exec_net h)

/-- Settles O11: each event that the network sees of a step keeps both laws. -/
theorem stepKeepsParentsOn : Obligations.StepKeepsParentsOn :=
  ⟨fun _ _ h hb => (step_net h).parentsBelow hb, fun _ _ h hb ho => (step_net h).parentsOn hb ho⟩

end Sys2Proof.Machine
end

section
/-! PROOFS. DEFINE and ERASE (R83, R84, R90), and COMMIT (R87 to R89). Where the model looks for a plan in use is the first of R81's three places
(`planInUse_eq_find`), and a step that it finds bad is bad by its bytes (`bad_step`). Each owner is said once per answer; the obligations put the
answers together. -/

namespace Sys2Proof.Machine

/-! ### Plan numbers in operands -/

@[simp] theorem toNat_byte_planNo (p : PlanNo) : (byte p.val).toNat = p.val :=
  Nat.mod_eq_of_lt (p.isLt.trans (by decide))

theorem planOf_eq_none {b : Byte} : planOf b = none ↔ 8 ≤ b.toNat := by
  simp [planOf]

@[simp] theorem planOf_byte (p : PlanNo) : planOf (byte p.val) = some p := by
  simp [planOf]

theorem planOf_eq_some {b : Byte} {p : PlanNo} : planOf b = some p ↔ b = byte p.val := by
  refine ⟨fun h => ?_, fun h => h ▸ planOf_byte p⟩
  obtain ⟨hb, hp⟩ := Option.dite_none_right_eq_some.mp h
  obtain rfl := Option.some.inj hp
  exact BitVec.eq_of_toNat_eq (toNat_byte_planNo ⟨b.toNat, hb⟩).symm

theorem unwindOperand_eq_none {b : Byte} : unwindOperand b = none ↔ 8 ≤ b.toNat ∧ b ≠ 0xFF := by
  unfold unwindOperand
  cases h : planOf b with
  | some u => simp [planOf_eq_some.mp h]
  | none => simp [planOf_eq_none.mp h]

@[simp] theorem unwindOperand_byte (u : PlanNo) : unwindOperand (byte u.val) = some (some u) := by
  simp [unwindOperand]

@[simp] theorem unwindOperand_absentFF (u : Option PlanNo) : unwindOperand (absentFF u) = some u := by
  cases u with
  | some u => exact unwindOperand_byte u
  | none => rfl

/-! ### Where a plan is in use -/

theorem planInUse_eq_find (s : State) (p : PlanNo) : s.planInUse p = [1, 2, 3].find? (s.usedAt p) := by
  simp only [State.planInUse, List.find?, State.usedAt]
  split_ifs <;> simp only [*]

theorem planInUse_eq_some {s : State} {p : PlanNo} {n : Nat} (hn : n ∈ [1, 2, 3]) (hu : s.usedAt p n = true)
    (hf : ∀ m ∈ List.range n, s.usedAt p m = false) : s.planInUse p = some n := by
  have order : [1, 2, 3].find? (s.usedAt p) = (List.range 4).find? (s.usedAt p) := rfl
  have h4 : n < 4 := by simp at hn; omega
  rw [planInUse_eq_find, order, List.find?_range_eq_some]
  exact ⟨hu, List.mem_range.mpr h4, fun m hm => by simp [hf m (List.mem_range.mpr hm)]⟩

theorem planInUse_eq_none {s : State} {p : PlanNo} (h : ∀ n ∈ [1, 2, 3], s.usedAt p n = false) : s.planInUse p = none := by
  rw [planInUse_eq_find, List.find?_eq_none]
  exact fun n hn => by simp [h n hn]

/-! ### Commands carried out -/

section Carried

variable {s t : State} {i : Instr} {code : Byte} {owner : State → Verdict × State} {v : Verdict}

/-- A command that its owner refuses without touching the part. CMD, which no judgement reads, already holds the code when the owner judges. -/
theorem exec_refused (he : exec i s = .next (hostCommand code owner s)) (hr : s.pins.inReset = false)
    (ho : owner (setCmd code s) = (v, setCmd code s)) (hv : v.code.isRefusal = true) :
    exec i s = .next (s.refusedWith code v.code.code v.detail) := by
  rw [he, hostCommand_refused hr ho hv]

/-- A command that its owner does not refuse: the part as the owner leaves it, with the result and no event flag (R177). -/
theorem exec_done (he : exec i s = .next (hostCommand code owner s)) (hr : s.pins.inReset = false)
    (ho : owner (setCmd code s) = (v, t)) (hv : v.code.isRefusal = false) :
    exec i s = .next (t.window t.bus.cmd v.code.code v.detail) := by
  rw [he, hostCommand_eq_answer hr, ho]
  simp only [answer, hv]
  rfl

end Carried

theorem exec_define (s : State) : exec .define s = .next (hostCommand 0x10 hostDefine s) := by
  rfl

theorem exec_commit (s : State) : exec .commit s = .next (hostCommand 0x11 hostCommit s) := by
  rfl

theorem exec_erase (s : State) : exec .erase s = .next (hostCommand 0x12 hostErase s) := by
  rfl

/-! ### DEFINE -/

/-- Check 1 of R83. An unwind plan that is the plan itself fails it too. -/
theorem hostDefine_badArgument {s : State}
    (h : 8 ≤ s.bus.arg0.toNat ∨ s.bus.arg1 = 0 ∨ 16 < s.bus.arg1.toNat ∨ (8 ≤ s.bus.arg2.toNat ∧ s.bus.arg2 ≠ 0xFF)
      ∨ s.bus.arg2 = s.bus.arg0) : hostDefine s = (.plain .badArgument, s) := by
  unfold hostDefine planOperand
  cases hp : planOf s.bus.arg0 with
  | none => rfl
  | some p =>
    have h0 := planOf_eq_some.mp hp
    cases hu : unwindOperand s.bus.arg2 with
    | none => rfl
    | some u =>
      refine if_pos ?_
      rcases h with h | h | h | h | h
      · simp [planOf_eq_none.mpr h] at hp
      · exact .inl (by simp [h])
      · exact .inr (.inl h)
      · simp [unwindOperand_eq_none.mpr h] at hu
      · exact .inr (.inr (by simpa [h, h0] using hu.symm))

theorem hostDefine_judged {s : State} {p : PlanNo} {u : Option PlanNo} (h0 : s.bus.arg0 = byte p.val) (hl : 1 ≤ s.bus.arg1.toNat)
    (hh : s.bus.arg1.toNat ≤ 16) (h2 : s.bus.arg2 = absentFF u) (hu : u ≠ some p) :
    hostDefine s = judgeDefine p (definedPlan s.bus.arg1.toNat u s.bus.arg3.toNat) s := by
  simp only [hostDefine, planOperand, h0, h2, planOf_byte, unwindOperand_absentFF]
  exact if_neg (not_or.mpr ⟨by omega, not_or.mpr ⟨by omega, hu⟩⟩)

theorem judgeDefine_planInUse {s : State} {p : PlanNo} {n : Nat} (x : Plan) (h : s.planInUse p = some n) :
    judgeDefine p x s = ({ code := .planInUse, detail := byte n }, s) := by
  simp [judgeDefine, h]

theorem judgeDefine_state {s : State} {p q : PlanNo} (x : Plan) (h : s.planInUse p = none) (hd : s.store.defining = some q)
    (hq : q ≠ p) : judgeDefine p x s = ({ code := .state, detail := byte q.val }, s) := by
  simp [judgeDefine, h, hd, hq]

theorem judgeDefine_accepted {s : State} {p : PlanNo} (x : Plan) (h : s.planInUse p = none)
    (hd : s.store.defining = none ∨ s.store.defining = some p) : judgeDefine p x s = (.plain .accepted, applyDefine p x s) := by
  rcases hd with hd | hd <;> simp [judgeDefine, h, hd]

/-! ### ERASE -/

theorem hostErase_badArgument {s : State} (h : 8 ≤ s.bus.arg0.toNat) : hostErase s = (.plain .badArgument, s) := by
  simp [hostErase, planOperand, planOf_eq_none.mpr h]

theorem hostErase_planInUse {s : State} {p : PlanNo} {n : Nat} (h0 : s.bus.arg0 = byte p.val) (h : s.planInUse p = some n) :
    hostErase s = ({ code := .planInUse, detail := byte n }, s) := by
  simp [hostErase, planOperand, h0, h]

theorem hostErase_already {s : State} {p : PlanNo} (h0 : s.bus.arg0 = byte p.val) (h : s.planInUse p = none)
    (he : (s.plan p).state = .empty) : hostErase s = (.plain .already, s) := by
  simp [hostErase, planOperand, h0, h, he]

theorem hostErase_accepted {s : State} {p : PlanNo} (h0 : s.bus.arg0 = byte p.val) (h : s.planInUse p = none)
    (he : (s.plan p).state ≠ .empty) : hostErase s = (.plain .accepted, emptyPlan p s) := by
  simp [hostErase, planOperand, h0, h, he]

theorem emptyPlan_of_defining {s : State} {p : PlanNo} (h : s.store.defining = some p) :
    emptyPlan p s = ((s.setPlan p Plan.blank).setDefining none).setWriteCount 0 := by
  simp [emptyPlan, h]

theorem emptyPlan_of_not_defining {s : State} {p : PlanNo} (h : s.store.defining ≠ some p) :
    emptyPlan p s = s.setPlan p Plan.blank := by
  simp [emptyPlan, h]

/-- Settles O31: each answer of the two owners, in the order of R83 and R90. -/
theorem defineAndErase : Obligations.DefineAndErase := by
  intro s hr
  refine ⟨?badDefine, ?badErase, fun p h0 => ⟨fun u hl hh h2 hu => ?define, ?eraseInUse, ?already, ?erase, ?eraseDefining⟩⟩
  case badDefine =>
    intro h
    exact (exec_refused (exec_define s) hr (hostDefine_badArgument (s := setCmd 0x10 s) h) rfl :)
  case badErase =>
    intro h
    exact (exec_refused (exec_erase s) hr (hostErase_badArgument (s := setCmd 0x12 s) h) rfl :)
  case define =>
    have judged := hostDefine_judged (s := setCmd 0x10 s) h0 hl hh h2 hu
    refine ⟨fun n hn hn' hf => ?_, fun q hn hd hq => ?_, fun hn hd => ?_⟩
    · exact (exec_refused (exec_define s) hr (judged.trans (judgeDefine_planInUse _ (planInUse_eq_some hn hn' hf))) rfl :)
    · exact (exec_refused (exec_define s) hr (judged.trans (judgeDefine_state _ (planInUse_eq_none hn) hd hq)) rfl :)
    · exact (exec_done (exec_define s) hr (judged.trans (judgeDefine_accepted _ (planInUse_eq_none hn) hd)) rfl :)
  case eraseInUse =>
    intro n hn hu hf
    exact (exec_refused (exec_erase s) hr (hostErase_planInUse (s := setCmd 0x12 s) h0 (planInUse_eq_some hn hu hf)) rfl :)
  case already =>
    intro hn he
    exact (exec_done (exec_erase s) hr (hostErase_already (s := setCmd 0x12 s) h0 (planInUse_eq_none hn) he) rfl :)
  case erase =>
    intro hn he hd
    have owner := hostErase_accepted (s := setCmd 0x12 s) h0 (planInUse_eq_none hn) he
    rw [emptyPlan_of_not_defining (s := setCmd 0x12 s) hd] at owner
    exact (exec_done (exec_erase s) hr owner rfl :)
  case eraseDefining =>
    intro hn he hd
    have owner := hostErase_accepted (s := setCmd 0x12 s) h0 (planInUse_eq_none hn) he
    rw [emptyPlan_of_defining (s := setCmd 0x12 s) hd] at owner
    exact (exec_done (exec_erase s) hr owner rfl :)

/-! ### Bad steps -/

/-- A step as COMMIT reads it is bad exactly when its bytes are (R88, R190): the kinds of the sixteen codes, one by one. -/
theorem bad_step (p : Plan) (i : Nat) :
    (p.step i).bad = badStepBytes (p.slotByte (4 * i)) (p.slotByte (4 * i + 1)) (p.slotByte (4 * i + 2)) := by
  have code : ((p.slotByte (4 * i)).setWidth 4).toNat = (p.slotByte (4 * i)).toNat % 16 := BitVec.toNat_setWidth ..
  have bound : (p.slotByte (4 * i)).toNat % 16 < 16 := Nat.mod_lt _ (by decide)
  simp only [StepRec.bad, Plan.step, badStepBytes, stepKindOf, code]
  generalize (p.slotByte (4 * i)).toNat % 16 = kind at bound
  interval_cases kind <;> simp

theorem firstBad_eq_some {p : Plan} {i : Nat} (hi : i < p.length) (hb : (p.step i).bad = true)
    (hf : ∀ j < i, (p.step j).bad = false) : p.firstBad = some i := by
  rw [Plan.firstBad, List.find?_range_eq_some]
  exact ⟨hb, List.mem_range.mpr hi, fun j hj => by simp [hf j hj]⟩

theorem firstBad_eq_none {p : Plan} (h : ∀ j < p.length, (p.step j).bad = false) : p.firstBad = none := by
  simpa [Plan.firstBad] using h

/-! ### COMMIT -/

section Commit

variable {s : State} {p : PlanNo}

theorem hostCommit_state (h : s.store.defining = none) : hostCommit s = (.plain .state, s) := by
  simp [hostCommit, h]

theorem hostCommit_lengthMismatch (h : s.store.defining = some p) (hl : s.bus.writeCount.toNat ≠ 4 * (s.plan p).length) :
    hostCommit s = ({ code := .lengthMismatch, detail := s.bus.writeCount }, s) := by
  simp [hostCommit, h, hl]

theorem hostCommit_badStep {i : Nat} (h : s.store.defining = some p) (hl : s.bus.writeCount.toNat = 4 * (s.plan p).length)
    (hb : (s.plan p).firstBad = some i) : hostCommit s = ({ code := .badStep, detail := byte i }, s) := by
  simp [hostCommit, h, hl, hb]

theorem hostCommit_accepted (h : s.store.defining = some p) (hl : s.bus.writeCount.toNat = 4 * (s.plan p).length)
    (hb : (s.plan p).firstBad = none) : hostCommit s =
      ({ code := .accepted, detail := byte p.val },
        ((s.setPlan p { s.plan p with state := .ready }).setDefining none).setWriteCount 0) := by
  simp [hostCommit, h, hl, hb]

end Commit

/-- Settles O32, check by check in the order of R87. -/
theorem commitChecksAndReadies : Obligations.CommitChecksAndReadies := by
  intro s hr
  refine ⟨fun hd => ?_, fun p hd => ⟨fun hl => ?_, fun hl => ?_⟩⟩
  · exact (exec_refused (exec_commit s) hr (hostCommit_state (s := setCmd 0x11 s) hd) rfl :)
  · exact (exec_refused (exec_commit s) hr (hostCommit_lengthMismatch (s := setCmd 0x11 s) hd hl) rfl :)
  · simp only [← bad_step]
    refine ⟨fun i hi hb hf => ?_, fun hf => ?_⟩
    · exact (exec_refused (exec_commit s) hr (hostCommit_badStep (s := setCmd 0x11 s) hd hl (firstBad_eq_some hi hb hf)) rfl :)
    · exact (exec_done (exec_commit s) hr (hostCommit_accepted (s := setCmd 0x11 s) hd hl (firstBad_eq_none hf)) rfl :)

end Sys2Proof.Machine
end

section
/-! PROOFS. ENGINE_RESET (R122). A run that ends without a reason reports as R113 says of every such end (`reportOf_eq_ended`), so the end of the run,
the stopped timers and the emptied requests leave the run side in one state (`runSide_cleared`). The DEFINING plan is emptied after it (R78). -/

namespace Sys2Proof.Machine

/-! ### The run in progress stopped -/

/-- The two ways to say the last-run report agree on every end that gives neither a reason nor a refusal (R113). -/
theorem reportOf_eq_ended (run : Run) (o : RunOutcome) : reportOf run o .none none = run.ended o := by
  have step : (if o = .done then none else run.stepReached) = if o = .done ∨ run.phase = .quiet then none else some run.step := by
    simp only [Run.stepReached, ite_or]
  simp only [reportOf, Run.ended, step]

theorem stopRun_of_none {s : State} (o : RunOutcome) (h : s.engine.run = none) : stopRun o s = s := by
  simp [stopRun, h]

/-- RESET is an outcome without a flag and without a record (R112, R122), so only the engine moves. -/
theorem goIdle_endRun_reset (run : Run) (s : State) : goIdle (endRun run .reset .none none s) = s.idleAfter (run.ended .reset) := by
  rw [← reportOf_eq_ended]
  rfl

theorem stopRun_reset_of_some {s : State} {run : Run} (h : s.engine.run = some run) :
    stopRun .reset s = s.idleAfter (run.ended .reset) := by
  simp [stopRun, h, goIdle_endRun_reset]

/-! ### What ENGINE_RESET clears -/

/-- The part with its run side cleared: no run, no timers, nothing waiting, and the report of the run that was in progress. -/
def State.runSideCleared (s : State) : State :=
  { s with
    engine :=
      { run := none, quietT := none, stepT := none, holdT := none
        report := match s.engine.run with
          | none => s.engine.report
          | some run => some (run.ended .reset) }
    requests := { s.requests with queue := [], slot := none } }

theorem runSide_cleared (s : State) : emptyRequests ((stopRun .reset s).setEngineTimers none none none) = s.runSideCleared := by
  cases h : s.engine.run with
  | none =>
    rw [stopRun_of_none .reset h]
    simp only [emptyRequests, State.setEngineTimers, State.setQueue, State.setSlot, State.runSideCleared, h]
  | some run =>
    rw [stopRun_reset_of_some h]
    simp only [emptyRequests, State.setEngineTimers, State.setQueue, State.setSlot, State.idleAfter, State.runSideCleared, h]

theorem emptyDefining_of_none {s : State} (h : s.store.defining = none) : emptyDefining s = s := by
  simp [emptyDefining, h]

theorem emptyDefining_of_some {s : State} {p : PlanNo} (h : s.store.defining = some p) :
    emptyDefining s = ((s.setPlan p Plan.blank).setDefining none).setWriteCount 0 := by
  simp [emptyDefining, h, emptyPlan_of_defining h]

theorem hostEngineReset_eq (s : State) :
    hostEngineReset s = (.plain .accepted, setFlag .restart (emptyDefining s.runSideCleared)) := by
  simp only [hostEngineReset, runSide_cleared]

theorem exec_engineReset (s : State) : exec .engineReset s = .next (hostCommand 0x30 hostEngineReset s) := by
  rfl

/-- Settles O38: the cleared run side is the same in every engine state, and a DEFINING plan is emptied on top of it. -/
theorem engineResetClearsRunSide : Obligations.EngineResetClearsRunSide := by
  intro s hr
  have owner := hostEngineReset_eq (setCmd 0x30 s)
  refine ⟨_, rfl, fun hd => ?none, fun p hd => ?defining⟩
  case none =>
    rw [emptyDefining_of_none (s := (setCmd 0x30 s).runSideCleared) hd] at owner
    exact (exec_done (exec_engineReset s) hr owner rfl :)
  case defining =>
    rw [emptyDefining_of_some (s := (setCmd 0x30 s).runSideCleared) hd] at owner
    exact (exec_done (exec_engineReset s) hr owner rfl :)

end Sys2Proof.Machine
end

section
/-! PROOFS. RUN as R127 answers it and as R128 queues it, and CANCEL (R129). Both find the plan's entry as the first of the queue: no entry of the
plan is no position (`queuePosition_eq_none`), and an entry behind others of other plans is at the number of those before it
(`queuePosition_eq_length`). -/

namespace Sys2Proof.Machine

/-! ### The position of a plan's entry -/

theorem queuePosition_eq_none {s : State} {p : PlanNo} (h : ∀ e ∈ s.requests.queue, e.plan ≠ p) : s.queuePosition p = none := by
  simpa [State.queuePosition] using h

theorem queuePosition_eq_length {s : State} {p : PlanNo} {l l' : List QueueEntry} {e : QueueEntry}
    (hq : s.requests.queue = l ++ e :: l') (he : e.plan = p) (hl : ∀ x ∈ l, x.plan ≠ p) : s.queuePosition p = some l.length := by
  have before : l.findIdx? (fun x => x.plan == p) = none := by simpa using hl
  simp [State.queuePosition, hq, List.findIdx?_append, before, List.findIdx?_cons, he]

/-- The same position by its index: the entry stands behind the first `i` and before the rest. -/
theorem queuePosition_eq_index {s : State} {p : PlanNo} {i : Nat} {e : QueueEntry} (hi : s.requests.queue[i]? = some e)
    (he : e.plan = p) (hf : ∀ x ∈ s.requests.queue.take i, x.plan ≠ p) : s.queuePosition p = some i := by
  obtain ⟨bound, rfl⟩ := List.getElem?_eq_some_iff.mp hi
  have parts : s.requests.queue = s.requests.queue.take i ++ s.requests.queue[i] :: s.requests.queue.drop (i + 1) := by simp
  have position := queuePosition_eq_length parts he hf
  rwa [List.length_take_of_le bound.le] at position

/-! ### RUN -/

theorem exec_run (s : State) : exec .run s = .next (hostCommand 0x18 hostRun s) := by
  rfl

theorem joinQueue_of_running {s : State} (e : QueueEntry) (h : s.engine.run ≠ none) :
    joinQueue e s = s.setQueue (s.requests.queue ++ [e]) := by
  simp [joinQueue, State.idle, h]

theorem hostRun_badArgument {s : State} (h : 8 ≤ s.bus.arg0.toNat) : hostRun s = (.plain .badArgument, s) := by
  simp [hostRun, planOperand, planOf_eq_none.mpr h]

section Run

variable {s : State} {p : PlanNo}

theorem hostRun_killed (h0 : s.bus.arg0 = byte p.val) (hk : s.pins.kill = true) : hostRun s = (.plain .killed, s) := by
  simp [hostRun, planOperand, h0, hk]

theorem hostRun_planNotReady (h0 : s.bus.arg0 = byte p.val) (hk : s.pins.kill = false) (hp : (s.plan p).state ≠ .ready) :
    hostRun s = (.plain .planNotReady, s) := by
  simp [hostRun, planOperand, h0, hk, State.ready, hp]

theorem hostRun_duplicate {i : Nat} (h0 : s.bus.arg0 = byte p.val) (hk : s.pins.kill = false) (hp : (s.plan p).state = .ready)
    (hq : s.queuePosition p = some i) : hostRun s = ({ code := .duplicate, detail := byte i }, s) := by
  simp [hostRun, planOperand, h0, hk, State.ready, hp, hq]

theorem hostRun_queueFull (h0 : s.bus.arg0 = byte p.val) (hk : s.pins.kill = false) (hp : (s.plan p).state = .ready)
    (hq : s.queuePosition p = none) (hf : 4 ≤ s.requests.queue.length) :
    hostRun s = ({ code := .queueFull, detail := 4 }, s) := by
  simp [hostRun, planOperand, h0, hk, State.ready, hp, hq, hf]

/-- Past the five checks of R127, with the engine IDLE or not. -/
theorem hostRun_accepted (h0 : s.bus.arg0 = byte p.val) (hk : s.pins.kill = false) (hp : (s.plan p).state = .ready)
    (hq : s.queuePosition p = none) (hf : s.requests.queue.length < 4) :
    hostRun s =
      ({ code := .accepted, detail := if s.idle then 0 else byte (s.requests.queue.length + 1) },
        joinQueue { plan := p, origin := .host, tag := some s.bus.arg1 } s) := by
  simp [hostRun, planOperand, h0, hk, State.ready, hp, hq, hf]

/-- R128 while a run is in progress. -/
theorem hostRun_queued (h0 : s.bus.arg0 = byte p.val) (hk : s.pins.kill = false) (hp : (s.plan p).state = .ready)
    (hq : s.queuePosition p = none) (hf : s.requests.queue.length < 4) (hr : s.engine.run ≠ none) :
    hostRun s =
      ({ code := .accepted, detail := byte (s.requests.queue.length + 1) },
        s.setQueue (s.requests.queue ++ [{ plan := p, origin := .host, tag := some s.bus.arg1 }])) := by
  rw [hostRun_accepted h0 hk hp hq hf, joinQueue_of_running _ hr]
  simp [State.idle, hr]

end Run

/-- Settles O33: each answer of the owner, in the order of R127's checks, and the entry at the tail. -/
theorem runAnswersAndQueues : Obligations.RunAnswersAndQueues := by
  intro s hr
  refine ⟨?badArgument, fun p h0 => ⟨?killed, ?planNotReady, fun hk hp => ⟨?duplicate, ?queueFull, ?queued⟩⟩⟩
  case badArgument =>
    intro h
    exact (exec_refused (exec_run s) hr (hostRun_badArgument (s := setCmd 0x18 s) h) rfl :)
  case killed =>
    intro hk
    exact (exec_refused (exec_run s) hr (hostRun_killed (s := setCmd 0x18 s) h0 hk) rfl :)
  case planNotReady =>
    intro hk hp
    exact (exec_refused (exec_run s) hr (hostRun_planNotReady (s := setCmd 0x18 s) h0 hk hp) rfl :)
  case duplicate =>
    intro i e hi he hf
    have position := queuePosition_eq_index (s := setCmd 0x18 s) hi he hf
    exact (exec_refused (exec_run s) hr (hostRun_duplicate h0 hk hp position) rfl :)
  case queueFull =>
    intro hq hf
    have position := queuePosition_eq_none (s := setCmd 0x18 s) hq
    exact (exec_refused (exec_run s) hr (hostRun_queueFull h0 hk hp position hf) rfl :)
  case queued =>
    intro hq hf running
    have position := queuePosition_eq_none (s := setCmd 0x18 s) hq
    exact (exec_done (exec_run s) hr (hostRun_queued h0 hk hp position hf running) rfl :)

/-! ### CANCEL -/

theorem exec_cancel (s : State) : exec .cancel s = .next (hostCommand 0x19 hostCancel s) := by
  rfl

theorem hostCancel_badArgument {s : State} (h : 8 ≤ s.bus.arg0.toNat) : hostCancel s = (.plain .badArgument, s) := by
  simp [hostCancel, planOperand, planOf_eq_none.mpr h]

theorem hostCancel_notFound {s : State} {p : PlanNo} (h0 : s.bus.arg0 = byte p.val) (hq : s.queuePosition p = none) :
    hostCancel s = (.plain .notFound, s) := by
  simp [hostCancel, planOperand, h0, hq]

theorem hostCancel_accepted {s : State} {p : PlanNo} {l l' : List QueueEntry} {e : QueueEntry} (h0 : s.bus.arg0 = byte p.val)
    (hq : s.requests.queue = l ++ e :: l') (he : e.plan = p) (hl : ∀ x ∈ l, x.plan ≠ p) :
    hostCancel s = ({ code := .accepted, detail := byte l.length }, s.setQueue (l ++ l')) := by
  have removed : (l ++ e :: l').eraseIdx l.length = l ++ l' := by simp [List.eraseIdx_append_of_length_le]
  simp [hostCancel, planOperand, h0, queuePosition_eq_length hq he hl, hq, removed]

/-- Settles O35: no operand, no entry, or the entry between those before it and those behind it taken out. -/
theorem cancelRemovesEntry : Obligations.CancelRemovesEntry := by
  intro s hr
  refine ⟨?badArgument, fun p h0 => ⟨?notFound, ?removed⟩⟩
  case badArgument =>
    intro h
    exact (exec_refused (exec_cancel s) hr (hostCancel_badArgument (s := setCmd 0x19 s) h) rfl :)
  case notFound =>
    intro hq
    have position := queuePosition_eq_none (s := setCmd 0x19 s) hq
    exact (exec_refused (exec_cancel s) hr (hostCancel_notFound h0 position) rfl :)
  case removed =>
    intro l l' e hq he hl
    exact (exec_done (exec_cancel s) hr (hostCancel_accepted (s := setCmd 0x19 s) h0 hq he hl) rfl :)

end Sys2Proof.Machine
end

section
/-! PROOFS. LOG_POP (R154). The law that ties FLT# to the records (R158) holds after any recomputation of FLT#, whatever stood before
(`recomputeFlt_fltLaw`), and the answer to a command touches none of what it reads. -/

namespace Sys2Proof.Machine

/-! ### FLT# recomputed -/

theorem fltLevel_eq_true {s : State} : s.fltLevel = true ↔ ∃ x ∈ s.log.records, s.pinMember x.subject = true := by
  simp [State.fltLevel]

theorem recomputeFlt_fltLaw (s : State) : (recomputeFlt s).fltLaw :=
  fltLevel_eq_true

theorem window_fltLaw {s : State} {code res detail : Byte} (h : s.fltLaw) : (s.window code res detail).fltLaw :=
  h

/-! ### LOG_POP -/

theorem exec_logPop (s : State) : exec .logPop s = .next (hostCommand 0x20 hostLogPop s) := by
  rfl

theorem hostLogPop_logEmpty {s : State} (h : s.log.records = []) : hostLogPop s = (.plain .logEmpty, s) := by
  simp [hostLogPop, h]

theorem hostLogPop_accepted {s : State} {x : LogRecord} {l : List LogRecord} (h : s.log.records = x :: l) :
    hostLogPop s = ({ code := .accepted, detail := byte x.subject.source }, recomputeFlt (s.setRecords l)) := by
  simp [hostLogPop, h]

/-- Settles O39: an empty log is refused, and a log with a first record keeps those behind it, with FLT# recomputed on them. -/
theorem logPopRemovesOldest : Obligations.LogPopRemovesOldest := by
  intro s hr
  refine ⟨?logEmpty, ?popped⟩
  case logEmpty =>
    intro h
    exact (exec_refused (exec_logPop s) hr (hostLogPop_logEmpty (s := setCmd 0x20 s) h) rfl :)
  case popped =>
    intro x l h
    have popped := exec_done (exec_logPop s) hr (hostLogPop_accepted (s := setCmd 0x20 s) h) rfl
    exact ⟨_, popped, rfl, window_fltLaw (recomputeFlt_fltLaw _)⟩

end Sys2Proof.Machine
end

section
/-! PROOFS. TDATA writes (R183, R85). The selected table decides where the byte goes (`writeTdata_staging`, `writeTdata_planSteps`,
`writeTdata_otherTable`); TPTR advances whatever becomes of the byte (`writeTdata_tptr`), and an ignored write does nothing else
(`writeTdata_ignored`). -/

namespace Sys2Proof.Machine

/-! ### Counters that stop at 255 -/

theorem toNat_succ_upTo255 (b : Byte) : (if b = 0xFF then 0xFF else b + 1 : Byte).toNat = min (b.toNat + 1) 255 := by
  split
  case isTrue h => simp [h]
  case isFalse h => bv_omega

theorem advancePointer_tptr (s : State) : (advancePointer s).bus.tptr.toNat = min (s.bus.tptr.toNat + 1) 255 :=
  toNat_succ_upTo255 s.bus.tptr

theorem countWrite_writeCount (s : State) : (countWrite s).bus.writeCount.toNat = min (s.bus.writeCount.toNat + 1) 255 :=
  toNat_succ_upTo255 s.bus.writeCount

/-! ### The staging buffer -/

theorem storeStaging_getElem (v : Byte) (s : State) (i : Nat) (hi : i < 20) :
    (storeStaging v s).bus.staging[i] = if i = s.bus.tptr.toNat then v else s.bus.staging[i] := by
  simp only [storeStaging, Vector.getElem_setIfInBounds hi, eq_comm]

theorem storeStaging_ignored {s : State} (v : Byte) (h : 20 ≤ s.bus.tptr.toNat) : storeStaging v s = s := by
  simp only [storeStaging, Vector.setIfInBounds_eq_of_size_le h]

/-! ### The step slot of the DEFINING plan -/

/-- A plan with one byte of its step slot replaced. -/
def Plan.withSlotByte (p : Plan) (n : Nat) (v : Byte) : Plan := { p with slot := p.slot.setIfInBounds n v }

theorem Plan.slotByte_withSlotByte (p : Plan) (n : Nat) (v : Byte) {i : Nat} (hi : i < 64) :
    (p.withSlotByte n v).slotByte i = if i = n then v else p.slotByte i := by
  simp [Plan.slotByte, Plan.withSlotByte, Vector.getElem_setIfInBounds, hi, eq_comm]

theorem storeStep_stored {s : State} {p : PlanNo} (v : Byte) (hd : s.store.defining = some p) (hi : s.bus.tidx = byte p.val)
    (hp : s.bus.tptr.toNat < 64) :
    storeStep v s = countWrite (s.setPlan p ((s.plan p).withSlotByte s.bus.tptr.toNat v)) := by
  simp only [storeStep, hd, planOf_eq_some.mpr hi, hp, and_self, if_true]
  rfl

theorem storeStep_ignored {s : State} (v : Byte)
    (h : ∀ p, s.store.defining = some p → s.bus.tidx = byte p.val → 64 ≤ s.bus.tptr.toNat) : storeStep v s = s := by
  unfold storeStep
  cases hd : s.store.defining with
  | none => rfl
  | some p => exact if_neg fun ⟨hi, hp⟩ => absurd (h p hd (planOf_eq_some.mp hi)) hp.not_ge

theorem storeStep_tptr (v : Byte) (s : State) : (storeStep v s).bus.tptr = s.bus.tptr := by
  unfold storeStep
  cases s.store.defining with
  | none => rfl
  | some p => simp only; split <;> rfl

/-! ### The selected table -/

theorem tableOf_eq_staging {b : Byte} : tableOf b = some .staging ↔ b.toNat = 2 := by
  unfold tableOf
  split <;> simp_all

theorem tableOf_eq_planSteps {b : Byte} : tableOf b = some .planSteps ↔ b.toNat = 5 := by
  unfold tableOf
  split <;> simp_all

theorem writeTdata_staging {s : State} (v : Byte) (h : s.bus.tsel.toNat = 2) :
    writeTdata v s = advancePointer (storeStaging v s) := by
  simp only [writeTdata, tableOf_eq_staging.mpr h]

theorem writeTdata_planSteps {s : State} (v : Byte) (h : s.bus.tsel.toNat = 5) :
    writeTdata v s = advancePointer (storeStep v s) := by
  simp only [writeTdata, tableOf_eq_planSteps.mpr h]

theorem writeTdata_otherTable {s : State} (v : Byte) (h2 : s.bus.tsel.toNat ≠ 2) (h5 : s.bus.tsel.toNat ≠ 5) :
    writeTdata v s = advancePointer s := by
  unfold writeTdata
  split
  next h => exact absurd (tableOf_eq_staging.mp h) h2
  next h => exact absurd (tableOf_eq_planSteps.mp h) h5
  next => rfl

/-! ### TDATA_WRITE -/

theorem exec_tdataWrite {s : State} (v : Byte) (hr : s.pins.inReset = false) : exec (.tdataWrite v) s = .next (writeTdata v s) := by
  have arm : exec (.tdataWrite v) s = .next (busWrite (writeTdata v) s) := rfl
  simp [arm, busWrite, hr]

theorem writeTdata_tptr (v : Byte) (s : State) : (writeTdata v s).bus.tptr.toNat = min (s.bus.tptr.toNat + 1) 255 := by
  by_cases h2 : s.bus.tsel.toNat = 2
  · rw [writeTdata_staging v h2, advancePointer_tptr]
    rfl
  by_cases h5 : s.bus.tsel.toNat = 5
  · rw [writeTdata_planSteps v h5, advancePointer_tptr, storeStep_tptr]
  · rw [writeTdata_otherTable v h2 h5, advancePointer_tptr]

/-- The cases of R183 in which the byte is ignored. -/
def State.ignoresTdata (s : State) : Prop :=
  (s.bus.tsel.toNat = 2 → 20 ≤ s.bus.tptr.toNat)
    ∧ (s.bus.tsel.toNat = 5 → ∀ p, s.store.defining = some p → s.bus.tidx = byte p.val → 64 ≤ s.bus.tptr.toNat)

theorem writeTdata_ignored {s : State} (v : Byte) (h : s.ignoresTdata) : writeTdata v s = advancePointer s := by
  obtain ⟨staging, planSteps⟩ := h
  by_cases h2 : s.bus.tsel.toNat = 2
  · rw [writeTdata_staging v h2, storeStaging_ignored v (staging h2)]
  by_cases h5 : s.bus.tsel.toNat = 5
  · rw [writeTdata_planSteps v h5, storeStep_ignored v (planSteps h5)]
  · exact writeTdata_otherTable v h2 h5

/-- Settles O45: the byte goes where the selected table sends it, and every case left over is one of those that ignore it. -/
theorem tdataWriteStoresOrIgnores : Obligations.TdataWriteStoresOrIgnores := by
  intro s v hr
  refine ⟨writeTdata v s, exec_tdataWrite v hr, writeTdata_tptr v s, ?staged, ?step, ?ignored⟩
  case staged =>
    intro h2 _
    rw [writeTdata_staging v h2]
    exact ⟨rfl, storeStaging_getElem v s⟩
  case step =>
    intro p h5 hd hi hp
    have plan : (writeTdata v s).plan p = (s.plan p).withSlotByte s.bus.tptr.toNat v := by
      rw [writeTdata_planSteps v h5, storeStep_stored v hd hi hp]
      exact (setPlan_plan s p p _).trans (if_pos rfl)
    rw [plan, writeTdata_planSteps v h5, storeStep_stored v hd hi hp]
    exact ⟨countWrite_writeCount _, fun _ hb => Plan.slotByte_withSlotByte _ _ _ hb, rfl⟩
  case ignored =>
    intro h
    have ignores : s.ignoresTdata := by
      rcases h with ⟨h2, h5⟩ | ⟨h2, hp⟩ | ⟨h5, hp⟩ | ⟨h5, hd⟩ | ⟨p, h5, hd, hi⟩
      · exact ⟨fun h => absurd h h2, fun h => absurd h h5⟩
      · exact ⟨fun _ => hp, by simp [h2]⟩
      · exact ⟨by simp [h5], fun _ _ _ _ => hp⟩
      · exact ⟨by simp [h5], by simp [hd]⟩
      · exact ⟨by simp [h5], by simp [hd, hi]⟩
    rw [writeTdata_ignored v ignores]
    rfl

end Sys2Proof.Machine
end

section
/-! PROOFS. The laws of a rail (R9, R50, R54, R63). Every step edits a rail channel by plain updates (`step_keeps_rail_law`), so each law is shown by looking
at the edits one by one. An edit of fields that a law does not speak of keeps it as it stands. -/

namespace Sys2Proof.Machine

/-! ### What a rail becomes -/

/-- The entry into FAULTED or LOCKED with its kind latched, in one update (R43, R45, R63). -/
theorem latch_cutTo (now : Uptime) (st : RailState) (k : FaultKind) (c : RailChan) :
    latch k (cutTo now st c) = c.cut now st k := by
  unfold cutTo endDischarge startRetry beginDischarge RailChan.cut
  by_cases hz : c.zone = .zero
  · by_cases hs : st = .faulted <;> simp [latch, cancelActiveTimers, hz, hs]
  · simp [latch, cancelActiveTimers, hz]

theorem offChannel_eq_wentOff (c : RailChan) : offChannel c = c.wentOff := rfl

/-- The entry into LOWERING, in one update (R22). -/
theorem enterLowering_eq_lowered (now : Uptime) (e : RailStep) : enterLowering now e = e.move (e.rc.lowered now) := by
  unfold enterLowering RailChan.lowered
  by_cases hz : e.rc.zone = .zero
  · simp [hz, cancelActiveTimers, enterOff, judgeOff, RailStep.move, offChannel, cancelAllTimers, RailChan.wentOff]
  · simp [hz, cancelActiveTimers]

theorem kindBit_ne_zero (k : FaultKind) : kindBit k.code ≠ 0#8 := by
  cases k <;> decide

theorem hasKind_backfeed_or (x : KindSet) (k : FaultKind) (hk : k ≠ .backfeed) :
    hasKind (x ||| kindBit k.code) FaultKind.backfeed.code = hasKind x FaultKind.backfeed.code := by
  cases k <;> simp_all [hasKind, kindBit, FaultKind.code]

/-! ### Outputs -/

theorem RailEdit.outputsLaw {a b : RailChan} (e : RailEdit a b) (h : a.outputsLaw) : b.outputsLaw := by
  obtain ⟨hen, hdis, hphase⟩ := h
  cases e with
  | arms | view | flag | bands | sense | settle | rampOut | uv | oc | backfeed => exact ⟨hen, hdis, hphase⟩
  | toOn hs => exact ⟨rfl, by cases hd : a.discharging <;> simp_all, by simpa [hs] using hphase⟩
  | locked now k => rw [latch_cutTo]; exact ⟨rfl, rfl, fun _ => .inr rfl⟩
  | faulted now k => rw [latch_cutTo]; exact ⟨rfl, rfl, fun _ => .inl rfl⟩
  | toLowering t hs =>
    refine ⟨rfl, rfl, fun hd => ?_⟩
    rcases hphase hd with hf | hf <;> simp [hf, RailState.active] at hs
  | lowered | cleared | raised | retried => exact ⟨rfl, rfl, fun hd => by cases hd⟩
  | deferred now hs ht =>
    rw [startRetry, if_pos hs]
    exact ⟨hen, hdis, hphase⟩
  | discharged now hd =>
    unfold endDischarge startRetry
    rcases hphase hd with hf | hf <;> simp_all [RailChan.outputsLaw, RailState.active]
  | recharged now hs => exact ⟨hen, by simp [beginDischarge], fun _ => .inl hs⟩
  | dischargeOut hs => exact ⟨by rcases hs with hs | hs <;> simp_all [dischargedOut, latch, RailState.active], rfl, fun hd => by cases hd⟩
  | dischargeOutFaulted hs => exact ⟨by simp_all [dischargedOut, latch, RailState.active], rfl, fun hd => by cases hd⟩
  | killed hs => exact ⟨by rw [hen, hs]; rfl, by rw [hdis, hs]; rfl, fun _ => .inr rfl⟩
  | written cfg hs => cases hu : cfg.used <;> simp [writtenChannel, RailChan.outputsLaw, hu, RailState.active]
  | reset => exact ⟨rfl, rfl, fun hd => by cases hd⟩

/-- Settles O9: every edit of a rail channel keeps the outputs that its state fixes. -/
theorem stepKeepsOutputs : Obligations.StepKeepsOutputs :=
  fun _ _ h hs => step_keeps_rail_law RailChan.outputsLaw (fun _ _ e => e.outputsLaw) h hs

/-! ### Timers -/

/-- A cut leaves no timer but those of the discharge phase and, in FAULTED after it, the retry timer (R43, R45, R50). -/
theorem timersLaw_cut (now : Uptime) (st : RailState) (k : FaultKind) (c : RailChan) (ha : c.state.active = true) (h : c.timersLaw) :
    (c.cut now st k).timersLaw := by
  obtain ⟨-, -, -, hback, -, -, hretry⟩ := h
  have hb : c.backfeedT = none := by
    by_contra hn
    simp [hback hn, RailState.active] at ha
  have hr : c.retryT = none := by
    by_contra hn
    simp [(hretry hn).1, RailState.active] at ha
  by_cases hz : c.zone = .zero
  · simpa [RailChan.timersLaw, RailChan.cut, hb, hr, hz] using fun hf _ => hf
  · simp [RailChan.timersLaw, RailChan.cut, hb, hr, hz]

theorem RailEdit.timersLaw {a b : RailChan} (e : RailEdit a b) (h : a.timersLaw) : b.timersLaw := by
  cases e with
  | arms | flag | bands | sense => exact h
  | locked now k hs => rw [latch_cutTo]; exact timersLaw_cut now .locked k a hs h
  | faulted now k hs => rw [latch_cutTo]; exact timersLaw_cut now .faulted k a hs h
  | lowered | cleared => simp [RailChan.timersLaw, offChannel, cancelAllTimers, cancelActiveTimers]
  | raised | retried => simp [RailChan.timersLaw, rampingChannel, armAll, cancelAllTimers, cancelActiveTimers]
  | written => simp [RailChan.timersLaw, writtenChannel, armAll, cancelAllTimers, cancelActiveTimers]
  | reset => simp [RailChan.timersLaw, RailChan.atReset]
  | view z hset =>
    obtain ⟨hramp, hsettle, hrest⟩ := h
    exact ⟨hramp, fun hn => absurd (hset (hsettle hn).1) hn, hrest⟩
  | settle t hs hz =>
    obtain ⟨hramp, -, hrest⟩ := h
    exact ⟨hramp, fun hn => ⟨hs, hz hn⟩, hrest⟩
  | rampOut hs =>
    obtain ⟨-, hrest⟩ := h
    exact ⟨fun hn => absurd rfl hn, hrest⟩
  | uv t hs =>
    obtain ⟨hramp, hsettle, hdis, hback, -, hrest⟩ := h
    exact ⟨hramp, hsettle, hdis, hback, fun _ => hs, hrest⟩
  | oc t hs =>
    obtain ⟨hramp, hsettle, hdis, hback, huv, -, hretry⟩ := h
    exact ⟨hramp, hsettle, hdis, hback, huv, fun _ => hs, hretry⟩
  | backfeed t hs =>
    obtain ⟨hramp, hsettle, hdis, -, hrest⟩ := h
    exact ⟨hramp, hsettle, hdis, fun _ => hs, hrest⟩
  | toOn hs => simp_all [RailChan.timersLaw, RailState.active]
  | toLowering t hs =>
    obtain ⟨-, -, -, hback, -, -, hretry⟩ := h
    have hb : a.state ≠ .off := fun ho => by simp [ho, RailState.active] at hs
    have hf : a.state ≠ .faulted := fun ho => by simp [ho, RailState.active] at hs
    simp_all [RailChan.timersLaw, cancelActiveTimers]
  | deferred now hs ht =>
    obtain ⟨hramp, hsettle, hdis, hback, huv, hoc, hretry⟩ := h
    rw [startRetry, if_pos hs]
    exact ⟨hramp, hsettle, hdis, hback, huv, hoc, fun _ => hretry ht⟩
  | discharged now hd =>
    unfold endDischarge startRetry
    by_cases hf : a.state = .faulted <;> simp_all [RailChan.timersLaw]
  | recharged now hs => simp_all [RailChan.timersLaw, beginDischarge]
  | dischargeOut hs => rcases hs with hs | hs <;> simp_all [RailChan.timersLaw, dischargedOut, latch, RailState.active]
  | dischargeOutFaulted hs ht =>
    obtain ⟨hramp, hsettle, hdis, hback, huv, hoc, hretry⟩ := h
    have hr : a.retryT = none := by
      by_contra hn
      rcases hdis ht with hl | hd
      · simp [hs] at hl
      · simp [(hretry hn).2] at hd
    simp_all [RailChan.timersLaw, dischargedOut, latch, RailState.active]
  | killed hs => simp_all [RailChan.timersLaw, RailState.active]

/-! ### Retries -/

theorem RailEdit.retryLaw {a b : RailChan} (e : RailEdit a b) (h : a.retryLaw) : b.retryLaw := by
  obtain ⟨hmax, hfaulted, hother⟩ := h
  cases e with
  | arms | view | flag | bands | sense | settle | rampOut | uv | oc | backfeed => exact ⟨hmax, hfaulted, hother⟩
  | toOn | toLowering | lowered | cleared | killed => exact ⟨hmax, (fun hf => by cases hf), hother⟩
  | locked now k => rw [latch_cutTo]; exact ⟨hmax, (fun hf => by cases hf), hother⟩
  | faulted now k _ _ hr hl => rw [latch_cutTo]; exact ⟨hmax, fun _ => ⟨hr, hl⟩, hother⟩
  | raised => exact ⟨Nat.zero_le _, (fun hf => by cases hf), fun _ => rfl⟩
  | retried now hs =>
    obtain ⟨hr, hl⟩ := hfaulted hs
    exact ⟨hl, (fun hf => by cases hf), fun hn => absurd hr hn⟩
  | deferred now hs =>
    rw [startRetry, if_pos hs]
    exact ⟨hmax, hfaulted, hother⟩
  | discharged now =>
    unfold endDischarge startRetry
    split
    · exact ⟨hmax, hfaulted, hother⟩
    · exact ⟨hmax, hfaulted, hother⟩
  | recharged => exact ⟨hmax, hfaulted, hother⟩
  | dischargeOut | dischargeOutFaulted => exact ⟨hmax, (fun hf => by cases hf), hother⟩
  | written cfg =>
    refine ⟨Nat.zero_le _, fun hf => ?_, fun _ => rfl⟩
    cases hu : cfg.used <;> simp [writtenChannel, hu] at hf
  | reset => exact ⟨Nat.zero_le _, (fun hf => by cases hf), fun _ => rfl⟩

/-! ### Latched kinds -/

/-- A kind other than BACKFEED latched on a rail that ends FAULTED or LOCKED. -/
theorem latchedLaw_latch (k : FaultKind) (c : RailChan) (hk : k ≠ .backfeed) (hs : c.state = .faulted ∨ c.state = .locked)
    (hf : c.firstKind = none ↔ c.latched = 0) (hb : hasKind c.latched FaultKind.backfeed.code = false) : (latch k c).latchedLaw := by
  refine ⟨fun _ => hs, ?_, ?_⟩
  · by_cases hl : c.latched = 0#8
    · simp [latch, hl, kindBit_ne_zero]
    · simpa [latch, hl, kindBit_ne_zero] using hf
  · exact (hasKind_backfeed_or c.latched k hk).trans hb

theorem cutTo_latched (now : Uptime) (st : RailState) (c : RailChan) :
    (cutTo now st c).latched = c.latched ∧ (cutTo now st c).firstKind = c.firstKind := by
  unfold cutTo endDischarge startRetry beginDischarge cancelActiveTimers
  dsimp only
  repeat' split
  all_goals exact ⟨rfl, rfl⟩

theorem RailEdit.latchedLaw {a b : RailChan} (e : RailEdit a b) (h : a.latchedLaw) : b.latchedLaw := by
  obtain ⟨hcut, hfirst, hback⟩ := h
  have clear : a.state ≠ .faulted → a.state ≠ .locked → a.latched = 0 := by
    intro hf hl
    by_contra hn
    rcases hcut hn with h | h <;> contradiction
  have noneHeld : hasKind 0 FaultKind.backfeed.code = false := by decide
  have cutLatched (now : Uptime) (st : RailState) (k : FaultKind) (hk : k ≠ .backfeed) (hst : st = .faulted ∨ st = .locked) :
      (latch k (cutTo now st a)).latchedLaw := by
    obtain ⟨h1, h2⟩ := cutTo_latched now st a
    exact latchedLaw_latch k _ hk (by rwa [cutTo_state]) (by rwa [h1, h2]) (by rwa [h1])
  cases e with
  | arms | view | flag | bands | sense | settle | rampOut | uv | oc | backfeed => exact ⟨hcut, hfirst, hback⟩
  | locked now k _ hk => exact cutLatched now .locked k hk (.inr rfl)
  | faulted now k _ hk => exact cutLatched now .faulted k hk (.inl rfl)
  | toOn hs => exact ⟨fun hn => absurd (clear (by simp [hs]) (by simp [hs])) hn, hfirst, hback⟩
  | toLowering t hs =>
    have h0 := clear (fun h => by simp [h, RailState.active] at hs) (fun h => by simp [h, RailState.active] at hs)
    exact ⟨fun hn => absurd h0 hn, hfirst, hback⟩
  | lowered hs => exact ⟨fun hn => absurd (clear (by simp [hs]) (by simp [hs])) hn, hfirst, hback⟩
  | raised now hs => exact ⟨fun hn => absurd (clear (by simp [hs]) (by simp [hs])) hn, hfirst, hback⟩
  | cleared | retried | written | reset => exact ⟨fun hn => absurd rfl hn, ⟨fun _ => rfl, fun _ => rfl⟩, noneHeld⟩
  | deferred now hs =>
    rw [startRetry, if_pos hs]
    exact ⟨hcut, hfirst, hback⟩
  | discharged now =>
    unfold endDischarge startRetry
    split
    · exact ⟨hcut, hfirst, hback⟩
    · exact ⟨hcut, hfirst, hback⟩
  | recharged => exact ⟨hcut, hfirst, hback⟩
  | dischargeOut | dischargeOutFaulted => exact latchedLaw_latch .dischargeTimeout _ (by decide) (.inr rfl) hfirst hback
  | killed hs => exact ⟨fun _ => .inr rfl, hfirst, hback⟩

/-- Settles O10: every edit of a rail channel keeps each of the three laws. -/
theorem stepKeepsRailLaws : Obligations.StepKeepsRailLaws :=
  ⟨fun _ _ h hs => step_keeps_rail_law RailChan.timersLaw (fun _ _ e => e.timersLaw) h hs,
    fun _ _ h hs => step_keeps_rail_law RailChan.retryLaw (fun _ _ e => e.retryLaw) h hs,
    fun _ _ h hs => step_keeps_rail_law RailChan.latchedLaw (fun _ _ e => e.latchedLaw) h hs⟩

end Sys2Proof.Machine
end

section
/-! PROOFS. What a rail event leaves alone, and what it tells its neighbours. A rail event touches the rails, the log and the notification unit and nothing
else (`onRail_elsewhere`). Every transition of a rail but WRITE_RAIL keeps its record, tells of each entry into FAULTED or LOCKED (R169), and leaves a rail
that is down, with KILL# asserted, down (R74): it is `Lawful`. The commands and arrivals of an event are sequences of such events (`Stirs`). -/

namespace Sys2Proof.Machine

/-! ### Outside the rails, the log and the notification unit -/

/-- Two states that differ in the rails, the records and FLT# of the log, and the notification unit alone. -/
structure State.SameElsewhere (s t : State) : Prop where
  store : t.store = s.store
  engine : t.engine = s.engine
  requests : t.requests = s.requests
  uptime : t.log.uptime = s.log.uptime
  bus : t.bus = s.bus
  pins : t.pins = s.pins
  freeIndex : t.freeIndex = s.freeIndex
  pending : t.pending = s.pending

namespace State.SameElsewhere

theorem refl (s : State) : s.SameElsewhere s := ⟨rfl, rfl, rfl, rfl, rfl, rfl, rfl, rfl⟩

theorem trans {s t u : State} (h : s.SameElsewhere t) (h' : t.SameElsewhere u) : s.SameElsewhere u :=
  ⟨h'.store.trans h.store, h'.engine.trans h.engine, h'.requests.trans h.requests, h'.uptime.trans h.uptime, h'.bus.trans h.bus,
    h'.pins.trans h.pins, h'.freeIndex.trans h.freeIndex, h'.pending.trans h.pending⟩

theorem eq {s t : State} (h : s.SameElsewhere t) :
    t = { s with rails := t.rails, log := { s.log with records := t.log.records, flt := t.log.flt }, notify := t.notify } := by
  obtain ⟨h1, h2, h3, h4, h5, h6, h7, h8⟩ := h
  cases t
  cases s
  simp_all
  rw [← h4]

theorem setRail (s : State) (r : Rail) (c : RailChan) : s.SameElsewhere (s.setRail r c) := ⟨rfl, rfl, rfl, rfl, rfl, rfl, rfl, rfl⟩

theorem setNotify (s : State) (n : Notify) : s.SameElsewhere (s.setNotify n) := ⟨rfl, rfl, rfl, rfl, rfl, rfl, rfl, rfl⟩

theorem logFault (x : Subject) (c : Option PlanContext) (s : State) : s.SameElsewhere (Machine.logFault x c s) := by
  unfold Machine.logFault
  split
  · exact ⟨rfl, rfl, rfl, rfl, rfl, rfl, rfl, rfl⟩
  · exact ⟨rfl, rfl, rfl, rfl, rfl, rfl, rfl, rfl⟩

theorem foldl {α : Type} {f : State → α → State} (h : ∀ (s : State) (x : α), s.SameElsewhere (f s x)) (l : List α) (s : State) :
    s.SameElsewhere (l.foldl f s) := by
  induction l generalizing s with
  | nil => exact refl s
  | cons x l ih => exact (h s x).trans (ih _)

end State.SameElsewhere

theorem commit_elsewhere (r : Rail) (e : RailStep) (d : Delta) : d.s.SameElsewhere (commit r e d).s := by
  rw [commit_s]
  refine ((State.SameElsewhere.setRail d.s r e.rc).trans (.foldl (fun _ _ => .logFault _ _ _) _ _)).trans
    (.foldl (fun t x => ?_) _ _)
  exact .trans (.setRail t x _) (.logFault _ _ _)

theorem onRail_elsewhere (r : Rail) (f : RailStep → RailStep) (d : Delta) : d.s.SameElsewhere (onRail r f d).s :=
  commit_elsewhere r _ d

/-! ### Transitions that tell -/

/-- A rail that has been cut and not cleared since. -/
def RailState.isCut (st : RailState) : Prop := st = .faulted ∨ st = .locked

/-- A rail that KILL# keeps down: not active, not FAULTED, not cut in this event (R74). -/
structure RailStep.Down (e : RailStep) : Prop where
  inactive : e.rc.state.active = false
  unfaulted : e.rc.state ≠ .faulted
  uncut : e.ownCut = false

/-- From one moment of a rail's event to a later one, an entry into FAULTED or LOCKED is told, and a rail that is down stays down. -/
structure RailStep.Tells (e e' : RailStep) : Prop where
  entered : e'.rc.state.isCut → e.rc.state.isCut ∨ e'.entered = true
  told : e.entered = true → e'.entered = true
  down : e.Down → e'.Down

namespace RailStep.Tells

theorem refl (e : RailStep) : e.Tells e := ⟨.inl, id, id⟩

theorem trans {e e' e'' : RailStep} (h : e.Tells e') (h' : e'.Tells e'') : e.Tells e'' :=
  ⟨fun hc => (h'.entered hc).elim (fun hc' => (h.entered hc').imp_right h'.told) .inr, fun ht => h'.told (h.told ht), fun hd => h'.down (h.down hd)⟩

theorem of_same {e e' : RailStep} (hs : e'.rc.state = e.rc.state) (he : e'.entered = e.entered) (ho : e'.ownCut = e.ownCut) :
    e.Tells e' :=
  ⟨fun hc => .inl (hs ▸ hc), fun ht => he.trans ht, fun hd => ⟨by rw [hs]; exact hd.inactive, by rw [hs]; exact hd.unfaulted, ho.trans hd.uncut⟩⟩

/-- A move of an active rail to a state that is no cut. -/
theorem of_active {e e' : RailStep} (ha : e.rc.state.active = true) (hn : ¬ e'.rc.state.isCut) (he : e'.entered = e.entered) :
    e.Tells e' :=
  ⟨fun hc => absurd hc hn, fun ht => he.trans ht, fun hd => by simp [hd.inactive] at ha⟩

/-- A move to a state that is no cut and not active. -/
theorem of_inactive {e e' : RailStep} (ha : e'.rc.state.active = false) (hn : ¬ e'.rc.state.isCut) (he : e'.entered = e.entered)
    (ho : e'.ownCut = e.ownCut) : e.Tells e' :=
  ⟨fun hc => absurd hc hn, fun ht => he.trans ht, fun hd => ⟨ha, fun hf => hn (.inl hf), ho.trans hd.uncut⟩⟩

end RailStep.Tells

theorem declareOwn_tells (now : Uptime) (k : FaultKind) (e : RailStep) (ha : e.rc.state.active = true) : e.Tells (declareOwn now k e) := by
  unfold declareOwn
  split
  · exact .of_same (disarm_state k e.rc) rfl rfl
  · exact ⟨fun _ => .inr rfl, fun _ => rfl, fun hd => by simp [hd.inactive] at ha⟩

theorem declareOv_tells (now : Uptime) (e : RailStep) (ha : e.rc.state.active = true) : e.Tells (declareOv now e) := by
  unfold declareOv
  split
  · exact declareOwn_tells now .ov e ha
  · exact .refl e

theorem declareExt_tells (now : Uptime) (e : RailStep) (ha : e.rc.state.active = true) : e.Tells (declareExt now e) := by
  unfold declareExt
  split
  · exact declareOwn_tells now .ext e ha
  · exact .refl e

theorem startUv_tells (now : Uptime) (e : RailStep) (ha : e.rc.state.active = true) : e.Tells (startUv now e) := by
  unfold startUv
  split_ifs
  · exact declareOwn_tells now .uv e ha
  · exact .of_same rfl rfl rfl
  · exact .refl e

theorem startOc_tells (now : Uptime) (e : RailStep) (ha : e.rc.state.active = true) : e.Tells (startOc now e) := by
  unfold startOc
  split_ifs
  · exact declareOwn_tells now .oc e ha
  · exact .of_same rfl rfl rfl
  · exact .refl e

theorem startBackfeed_tells (now : Uptime) (e : RailStep) : e.Tells (startBackfeed now e) := by
  unfold startBackfeed
  split_ifs
  · exact .of_same rfl rfl rfl
  · exact .of_same rfl rfl rfl
  · exact .refl e

theorem judgeOff_tells (now : Uptime) (e : RailStep) : e.Tells (judgeOff now e) := by
  unfold judgeOff
  split
  · exact .refl e
  · exact startBackfeed_tells now e

theorem enterOff_tells (now : Uptime) (e : RailStep) : e.Tells (enterOff now e) :=
  .trans (e' := e.move (offChannel e.rc)) (.of_inactive rfl (fun hc => by rcases hc with hc | hc <;> cases hc) rfl rfl) (judgeOff_tells now _)

theorem enterOn_tells (e : RailStep) (h : e.rc.state = .ramping) : e.Tells (enterOn e) :=
  .of_active (by rw [h]; rfl) (fun hc => by rcases hc with hc | hc <;> cases hc) rfl

theorem enterLowering_tells (now : Uptime) (e : RailStep) : e.Tells (enterLowering now e) := by
  rw [enterLowering_eq_lowered]
  have hl : (e.rc.lowered now).state = .off ∨ (e.rc.lowered now).state = .lowering := by
    unfold RailChan.lowered
    split
    · exact .inl rfl
    · exact .inr rfl
  refine .of_inactive ?_ (fun hc => ?_) rfl rfl
  · rcases hl with hl | hl <;> simp [RailStep.move, hl, RailState.active]
  · rcases hl with hl | hl <;> simp [RailStep.move, hl, RailState.isCut] at hc

theorem judgeRamping_tells (now : Uptime) (e : RailStep) (h : e.rc.state = .ramping) : e.Tells (judgeRamping now e) := by
  have unsettled : e.Tells (e.withRc { e.rc with settleT := none }) := .of_same rfl rfl rfl
  unfold judgeRamping
  split
  · split
    · exact enterOn_tells e h
    · exact .of_same rfl rfl rfl
  · exact unsettled.trans (declareOv_tells now _ (by simp [RailStep.withRc, h, RailState.active]))
  · exact unsettled
  · exact unsettled

theorem judgeOn_tells (now : Uptime) (e : RailStep) (h : e.rc.state = .on) : e.Tells (judgeOn now e) := by
  have unfiltered : e.Tells (e.withRc { e.rc with uvT := none }) := .of_same rfl rfl rfl
  have ha : e.rc.state.active = true := by rw [h]; rfl
  unfold judgeOn
  split
  · exact unfiltered
  · exact unfiltered.trans (declareOv_tells now _ ha)
  · exact startUv_tells now e ha
  · exact startUv_tells now e ha

theorem judgeCut_tells (now : Uptime) (e : RailStep) : e.Tells (judgeCut now e) := by
  unfold judgeCut
  split_ifs
  · exact .of_same (endDischarge_state now e.rc) rfl rfl
  · exact .refl e
  · exact .of_same rfl rfl rfl
  · exact .refl e

theorem railZoneArrival_tells (now : Uptime) (e : RailStep) : e.Tells (railZoneArrival now e) := by
  have rearmed : e.Tells (e.withRc (rearmByZone e.rc)) := .of_same rfl rfl rfl
  unfold railZoneArrival
  split
  · exact .refl e
  · unfold arriveOff
    split
    · exact .of_same rfl rfl rfl
    · exact startBackfeed_tells now e
  · exact rearmed.trans (judgeRamping_tells now _ (by assumption))
  · exact rearmed.trans (judgeOn_tells now _ (by assumption))
  · unfold judgeLowering
    split
    · exact enterOff_tells now e
    · exact .refl e
  · exact judgeCut_tells now e
  · exact judgeCut_tells now e

theorem enterRamping_tells (now : Uptime) (xf : Bool) (e : RailStep) : (e.move (rampingChannel now e.rc)).Tells (enterRamping now xf e) := by
  have flag (x : RailStep) : x.Tells (judgeFlagAtEntry now x) := by
    unfold judgeFlagAtEntry
    split
    · rename_i h; exact startOc_tells now x h.1
    · exact .refl x
  have input (x : RailStep) : x.Tells (judgeInputAtEntry now xf x) := by
    unfold judgeInputAtEntry
    split
    · rename_i h; exact declareExt_tells now x h.1
    · exact .refl x
  exact ((judgeRamping_tells now _ rfl).trans (flag _)).trans (input _)

/-! ### Lawful transitions -/

/-- A transition that a rail with a record, at a level of KILL#, may undergo: the record stands, an entry into FAULTED or LOCKED is told, and a rail that
is down while KILL# is asserted stays down. -/
structure Lawful (kill : Bool) (c : RailChan) (e : RailStep) : Prop where
  cfg : e.rc.cfg = c.cfg
  entered : e.rc.state.isCut → c.state.isCut ∨ e.entered = true
  down : kill = true → c.state.active = false → c.state ≠ .faulted → e.Down

theorem Lawful.of {kill : Bool} {c : RailChan} {e : RailStep} (hi : (RailStep.of c).OfItself e) (ht : (RailStep.of c).Tells e) :
    Lawful kill c e :=
  ⟨hi.cfg, ht.entered, fun _ ha hf => ht.down ⟨ha, hf, rfl⟩⟩

section Transitions

variable (kill : Bool) (now : Uptime) (c : RailChan)

theorem takeZone_lawful (z : Zone) : Lawful kill c (takeZone now z (.of c)) :=
  .of (takeZone_ofItself now _ z)
    (.trans (e' := ((RailStep.of c).withRc (c.noteZone z)).withRc { c.noteZone z with zone := z }) (.of_same rfl rfl rfl)
      (railZoneArrival_tells now _))

theorem takeFlag_lawful (b : Bool) : Lawful kill c (takeFlag now b (.of c)) := by
  refine .of (takeFlag_ofItself now _ b)
    (.trans (e' := ((RailStep.of c).withRc (c.noteFlag b)).withRc { c.noteFlag b with overCurrent := b }) (.of_same rfl rfl rfl) ?_)
  unfold takeFlag arriveFlag railOverCurrent
  split
  · rename_i ha
    split
    · exact startOc_tells now _ ha
    · exact .of_same rfl rfl rfl
  · exact .of_same rfl rfl rfl

theorem railXfAssert_lawful : Lawful kill c (railXfAssert now (.of c)) := by
  refine .of (railXfAssert_ofItself now _) ?_
  unfold railXfAssert
  split
  · rename_i ha; exact declareExt_tells now _ ha
  · exact .refl _

theorem railRampExpiry_lawful : Lawful kill c (railRampExpiry now (.of c)) := by
  refine .of (railRampExpiry_ofItself now _) ?_
  unfold railRampExpiry
  split
  · rename_i h
    exact .trans (e' := (RailStep.of c).withRc { c with rampT := none }) (.of_same rfl rfl rfl)
      (declareOwn_tells now _ _ (by have hr : c.state = .ramping := h.1
                                    simp [RailStep.withRc, hr, RailState.active]))
  · exact .refl _

theorem railSettleExpiry_lawful : Lawful kill c (railSettleExpiry (.of c)) := by
  refine .of (railSettleExpiry_ofItself _) ?_
  unfold railSettleExpiry
  split
  · rename_i h; exact enterOn_tells _ h.1
  · exact .refl _

theorem railUvExpiry_lawful : Lawful kill c (railUvExpiry now (.of c)) := by
  refine .of (railUvExpiry_ofItself now _) ?_
  unfold railUvExpiry
  split
  · rename_i h
    exact .trans (e' := (RailStep.of c).withRc { c with uvT := none }) (.of_same rfl rfl rfl)
      (declareOwn_tells now _ _ (by have ho : c.state = .on := h.1
                                    simp [RailStep.withRc, ho, RailState.active]))
  · exact .refl _

theorem railOcExpiry_lawful : Lawful kill c (railOcExpiry now (.of c)) := by
  refine .of (railOcExpiry_ofItself now _) ?_
  unfold railOcExpiry
  split
  · rename_i h
    exact .trans (e' := (RailStep.of c).withRc { c with ocT := none }) (.of_same rfl rfl rfl) (declareOwn_tells now _ _ h.1)
  · exact .refl _

theorem railBackfeedExpiry_lawful : Lawful kill c (railBackfeedExpiry (.of c)) := by
  refine .of (railBackfeedExpiry_ofItself _) ?_
  unfold railBackfeedExpiry
  split
  · exact .of_same rfl rfl rfl
  · exact .refl _

theorem railDischargeExpiry_lawful : Lawful kill c (railDischargeExpiry (.of c)) := by
  have locked {e : RailStep} (hs : e.rc.state = .locked) (ho : e.ownCut = false) (he : e.entered = true ∨ c.state = .locked) :
      (RailStep.of c).Tells e :=
    ⟨fun _ => he.elim .inr (fun hl => .inl (.inr hl)), (fun ht => by cases ht), fun _ => ⟨by rw [hs]; rfl, by rw [hs]; decide, ho⟩⟩
  refine .of (railDischargeExpiry_ofItself _) ?_
  unfold railDischargeExpiry
  split
  · exact .refl _
  · split
    · exact locked rfl rfl (.inl rfl)
    · exact locked rfl rfl (.inl rfl)
    · rename_i hs; exact locked rfl rfl (.inr hs)
    · exact .refl _

/-- A retry raises a FAULTED rail, which is not down (R51). -/
theorem railRetryExpiry_lawful (xf on level : Bool) : Lawful kill c (railRetryExpiry now xf on level (.of c)) := by
  unfold railRetryExpiry
  split
  · rename_i h
    have hf : c.state = .faulted := h.1
    split
    · exact ⟨(enterRamping_ofItself now ((RailStep.of c).withRc _) xf).cfg, fun _ => .inl (.inl hf), fun _ _ hn => absurd hf hn⟩
    · refine ⟨?_, fun _ => .inl (.inl hf), fun _ _ hn => absurd hf hn⟩
      simp only [RailStep.withRc, startRetry]
      split <;> rfl
  · exact .of (.refl _) (.refl _)

/-- RAISE is accepted with KILL# deasserted alone (R14). -/
theorem railRaise_lawful (xf : Bool) : Lawful false c (railRaise now xf (.of c)) :=
  ⟨railRaise_cfg now _ xf,
    fun hc => ((enterRamping_tells now xf ((RailStep.of c).withRc { c with retries := 0 })).entered hc).elim
      (fun h => by rcases h with h | h <;> cases h) .inr,
    fun h => by cases h⟩

theorem enterLowering_lawful : Lawful kill c (enterLowering now (.of c)) :=
  have ht := enterLowering_tells now (.of c)
  ⟨(enterLowering_ends now _).1, ht.entered, fun _ ha hf => ht.down ⟨ha, hf, rfl⟩⟩

theorem railClear_lawful : Lawful kill c (railClear now (.of c)) := by
  have ht : (RailStep.of c).Tells (railClear now (.of c)) :=
    .trans (e' := (RailStep.of c).withRc { c with latched := 0, firstKind := none }) (.of_same rfl rfl rfl) (enterOff_tells now _)
  refine ⟨?_, ht.entered, fun _ ha hf => ht.down ⟨ha, hf, rfl⟩⟩
  exact (judgeOff_ofItself now _).cfg

end Transitions

/-! ### The rail events of one event of the part -/

/-- A lawful rail event. -/
inductive Stir (d : Delta) : Delta → Prop where
  | rail (r : Rail) (f : RailStep → RailStep) (h : Lawful d.s.pins.kill (d.s.rail r) (f (.of (d.s.rail r)))) : Stir d (onRail r f d)

/-- A sequence of lawful rail events. -/
abbrev Stirs : Delta → Delta → Prop := Relation.ReflTransGen Stir

theorem Stir.elsewhere {d d' : Delta} (h : Stir d d') : d.s.SameElsewhere d'.s := by
  cases h with
  | rail r f => exact onRail_elsewhere r f d

theorem Stirs.elsewhere {d d' : Delta} (h : Stirs d d') : d.s.SameElsewhere d'.s := by
  induction h with
  | refl => exact .refl _
  | tail _ h ih => exact ih.trans h.elsewhere

theorem doRaise_stir (r : Rail) (d : Delta) (hk : d.s.pins.kill = false) : Stir d (doRaise r d) :=
  .rail r _ (by rw [hk]; exact railRaise_lawful _ _ _)

theorem doLower_stir (r : Rail) (d : Delta) : Stir d (doLower r d) := .rail r _ (enterLowering_lawful _ _ _)

theorem doClear_stir (r : Rail) (d : Delta) : Stir d (doClear r d) := .rail r _ (railClear_lawful _ _ _)

/-- Commands on several rails, each lawful at the present level of KILL#. -/
theorem foldl_stirs {act : Rail → Delta → Delta} (l : List Rail) (d : Delta)
    (h : ∀ r ∈ l, ∀ d' : Delta, d'.s.pins = d.s.pins → Stir d' (act r d')) : Stirs d (l.foldl (fun d r => act r d) d) := by
  induction l generalizing d with
  | nil => exact .refl
  | cons r l ih =>
    have h1 : Stir d (act r d) := h r (by simp) d rfl
    exact .head h1 (ih _ (fun x hx d' hd => h x (by simp [hx]) d' (hd.trans h1.elsewhere.pins)))

/-- A judgement of rails whose acceptance makes an act lawful. -/
abbrev Accepts (judge : State → Rail → Verdict) (act : Rail → Delta → Delta) : Prop :=
  ∀ (s : State) (r : Rail), (judge s r).code = .accepted → ∀ d : Delta, d.s.pins = s.pins → Stir d (act r d)

theorem accepts_raise : Accepts judgeRaise doRaise := by
  intro s r h d hd
  obtain ⟨-, -, -, hk⟩ := judgeRaise_accepted h
  exact doRaise_stir r d (hd ▸ hk)

theorem accepts_lower : Accepts judgeLower doLower := fun _ r _ d _ => doLower_stir r d

theorem accepts_clear : Accepts judgeClear doClear := fun _ r _ d _ => doClear_stir r d

theorem railCommandOf_stirs {judge : State → Rail → Verdict} {act : Rail → Delta → Delta} (h : Accepts judge act) (b : Byte) (s : State) :
    Stirs (Delta.of s) (railCommandOf judge act b s).2 := by
  unfold railCommandOf
  split
  · exact .refl
  · simp only [railCommand]
    split
    · exact .single (h s _ (by assumption) _ rfl)
    · exact .refl

theorem groupEach_stirs {judge : State → Rail → Verdict} {act : Rail → Delta → Delta} (h : Accepts judge act) (tag mask : BitVec 4)
    (s : State) : Stirs (Delta.of s) (groupEach judge act tag mask s).2 := by
  unfold groupEach
  split
  · exact .refl
  · exact foldl_stirs _ _ (fun r hr d hd => h s r (by simpa using (List.mem_filter.mp hr).2) d hd)

theorem groupLower_stirs (tag mask : BitVec 4) (s : State) : Stirs (Delta.of s) (groupLower tag mask s).2 := by
  unfold groupLower
  split
  · exact .refl
  · split
    · exact .refl
    · split
      · exact .refl
      · exact foldl_stirs _ _ (fun r _ d _ => doLower_stir r d)

/-- The command of an issuing step is a sequence of lawful rail events. -/
theorem issue_stirs (kind : StepKind) (st : StepRec) (s : State) : Stirs (Delta.of s) (issue kind st s).2 := by
  unfold issue
  split
  · split
    · exact groupEach_stirs accepts_raise _ _ s
    · exact railCommandOf_stirs accepts_raise _ s
  · split
    · exact groupLower_stirs _ _ s
    · exact railCommandOf_stirs accepts_lower _ s
  · split
    · exact groupEach_stirs accepts_clear _ _ s
    · exact railCommandOf_stirs accepts_clear _ s
  · exact .refl

theorem issue_elsewhere (kind : StepKind) (st : StepRec) (s : State) : s.SameElsewhere (issue kind st s).2.s :=
  (issue_stirs kind st s).elsewhere

theorem groupCommandOf_stirs {run : BitVec 4 → BitVec 4 → State → Verdict × Delta} {s : State}
    (h : ∀ t m, Stirs (Delta.of s) (run t m s).2) (a b : Byte) : Stirs (Delta.of s) (groupCommandOf run a b s).2 := by
  unfold groupCommandOf
  split
  · exact .refl
  · exact h _ _

end Sys2Proof.Machine
end

section
/-! PROOFS. What a command does to the part as a whole, said once. Within an event the part makes single updates (`Act`), and a command is a sequence of a
few kinds of deed (`Deed`, `exec_deeds`): edits of a rail that keep its state, events of rails handed on, events of the engine and the run request unit,
and updates of the other blocks. The resets and the millisecond tick stand apart. -/

namespace Sys2Proof.Machine

/-! ### Acts -/

/-- A rail record names a cause rail only when a cascade opened it (R148). -/
def Subject.causeLawful (x : Subject) : Prop := ∀ r k st cause, x = .rail r k st (some cause) → k = .cascade

/-- One update of the part within an event; the records of the rails stand. -/
inductive Act : State → State → Prop where
  | rail (s : State) (r : Rail) (c : RailChan) (hc : c.cfg = (s.rail r).cfg) : Act s (s.setRail r c)
  | fault (s : State) (x : Subject) (context : Option PlanContext) (hx : x.causeLawful) : Act s (logFault x context s)
  | judged (s : State) (flags enables : Byte) (changed : RailSet) :
      Act s (s.setNotify { s.notify with flags := flags, enables := enables, changed := changed }.judge)
  | shed (s : State) (level : Bool) : Act s (s.setNotify { s.notify with shed := level })
  | engine (s : State) (e : Engine) : Act s { s with engine := e }
  | waiting (s : State) (q : List QueueEntry) (x : Option PlanRequest) : Act s { s with requests := { s.requests with queue := q, slot := x } }

/-- A sequence of acts. -/
abbrev Acts : State → State → Prop := Relation.ReflTransGen Act

theorem Act.acts {s t : State} (h : Act s t) : Acts s t := .single h

theorem Acts.keeps {s t : State} (h : Acts s t) (P : State → Prop) (hP : ∀ x y, Act x y → P x → P y) (hs : P s) : P t := by
  induction h with
  | refl => exact hs
  | tail _ ha ih => exact hP _ _ ha ih

theorem logRail_act (r : Rail) (k : FaultKind) (st : RailState) (s : State) : Act s (logRail r k st none s) :=
  .fault s (.rail r k st none) _ (fun _ _ _ _ h => by cases h)

theorem cascadeOne_acts (cause : Option Rail) (x : Rail) (s : State) : Acts s (cascadeOne cause x s) := by
  have cut : Act s (s.setRail x (latch .cascade (cutTo s.now .locked (s.rail x)))) := .rail s x _ (cutTo_cfg s.now .locked _)
  exact .tail (.single cut) (.fault _ (.rail x .cascade (s.rail x).state cause) _ (fun _ _ _ _ h => by cases h; rfl))

theorem foldl_acts {α : Type} {f : State → α → State} (h : ∀ (s : State) (x : α), Acts s (f s x)) (l : List α) (s : State) :
    Acts s (l.foldl f s) := by
  induction l generalizing s with
  | nil => exact .refl
  | cons x l ih => exact (h s x).trans (ih _)

theorem logDecls_acts (r : Rail) (l : List Decl) (s : State) : Acts s (logDecls r l s) := by
  have each (t : State) (d : Decl) : Acts t (logRail r d.kind d.state none t) := (logRail_act r d.kind d.state t).acts
  exact foldl_acts each l s

theorem cascadeAll_acts (origin : Rail) (taken : RailSet) (s : State) : Acts s (cascadeAll origin taken s) := by
  unfold cascadeAll
  exact foldl_acts (fun t x => cascadeOne_acts (s.causeRail origin taken x) x t) _ s

/-- A rail event that keeps the record of its rail, or one after the record has been replaced. -/
theorem commit_acts (r : Rail) (e : RailStep) (d : Delta) : Acts (d.s.setRail r e.rc) (commit r e d).s := by
  rw [commit_s]
  exact (logDecls_acts r e.decls _).trans (cascadeAll_acts r _ _)

theorem Stir.acts {d d' : Delta} (h : Stir d d') : Acts d.s d'.s := by
  cases h with
  | rail r f h => exact .head (.rail d.s r _ h.cfg) (commit_acts r _ d)

theorem Stirs.acts {d d' : Delta} (h : Stirs d d') : Acts d.s d'.s := by
  induction h with
  | refl => exact .refl
  | tail _ h ih => exact ih.trans h.acts

theorem Move.acts {s t : State} (h : Move s t) : Acts s t := by
  cases h with
  | run | timers | report => exact .single (.engine s _)
  | queue q => exact .single (.waiting s q s.requests.slot)
  | slot x => exact .single (.waiting s s.requests.queue x)
  | flag f => exact .single (.judged s _ s.notify.enables s.notify.changed)
  | changed r => exact .single (.judged s s.notify.flags s.notify.enables _)
  | shed => exact .single (.shed s true)
  | record => exact .single (.fault s _ _ (fun _ _ _ _ h => by cases h))
  | command kind st => exact (issue_stirs kind st s).acts

theorem Moves.acts {s t : State} (h : Moves s t) : Acts s t := by
  induction h with
  | refl => exact .refl
  | tail _ h ih => exact ih.trans h.acts

/-! ### Deeds -/

/-- One deed of a command. -/
inductive Deed : State → State → Prop where
  | rail (s : State) (r : Rail) (c : RailChan) (hc : c.cfg = (s.rail r).cfg) (hs : c.state = (s.rail r).state) : Deed s (s.setRail r c)
  | event (s : State) (d : Delta) (hd : Stirs (Delta.of s) d) : Deed s (finish d)
  | write (s : State) (r : Rail) (h : (judgeWrite s r).code = .accepted) : Deed s (applyWrite s r)
  | record (s : State) (kind : EngineKind) (role : Role) (c : PlanContext) : Deed s (logEngine kind role c s)
  | judged (s : State) (flags enables : Byte) (changed : RailSet) :
      Deed s (s.setNotify { s.notify with flags := flags, enables := enables, changed := changed }.judge)
  | acked (s : State) (hk : s.pins.kill = false) (hb : s.shedBlocker = none) : Deed s (s.setNotify { s.notify with shed := false })
  | popped (s : State) (x : LogRecord) (l : List LogRecord) (h : s.log.records = x :: l) : Deed s (recomputeFlt (s.setRecords l))
  | config (s : State) (p : Option PlanNo) (pin : Bool) :
      Deed s (recomputeFlt { s with requests := { s.requests with pwrPlan := p, enginePin := pin } })
  | bus (s : State) (b : HostBus) (h : b.writeCount = s.bus.writeCount) : Deed s { s with bus := b }
  | pins (s : State) (p : Pins) (hr : p.inReset = s.pins.inReset) (hk : s.pins.inReset = false → p.kill = true → s.pins.kill = true) :
      Deed s { s with pins := p }
  | free (s : State) (n : Nat) : Deed s { s with freeIndex := n }
  | define (s : State) (p : PlanNo) (x : Plan) (hu : s.planInUse p = none) (hd : s.store.defining = none ∨ s.store.defining = some p)
      (hx : x.state = .defining) (hl : 1 ≤ x.length ∧ x.length ≤ 16) (hw : x.unwind ≠ some p) : Deed s (applyDefine p x s)
  | commit (s : State) (p : PlanNo) (hd : s.store.defining = some p) :
      Deed s (((s.setPlan p { s.plan p with state := .ready }).setDefining none).setWriteCount 0)
  | erase (s : State) (p : PlanNo) (hu : s.planInUse p = none) : Deed s (emptyPlan p s)
  | storeStep (s : State) (v : Byte) : Deed s (storeStep v s)
  | join (s : State) (e : QueueEntry) (hk : s.pins.kill = false) (hr : s.ready e.plan = true) (hq : s.queuePosition e.plan = none)
      (hl : s.requests.queue.length < 4) : Deed s (joinQueue e s)
  | cancel (s : State) (i : Nat) : Deed s (s.setQueue (s.requests.queue.eraseIdx i))
  | release (s : State) (run : Run) (h : s.engine.run = some run) :
      Deed s (finishWork (nextSteps run { s := s.setEngineTimers s.engine.quietT s.engine.stepT none, reqs := [] }))
  | abort (s : State) (run : Run) (h : s.engine.run = some run) : Deed s (hostAbort s).2
  | quietExpiry (s : State) : Deed s (quietExpiry s)
  | stepTimerExpiry (s : State) : Deed s (stepTimerExpiry s)
  | holdExpiry (s : State) : Deed s (holdExpiry s)
  | engineReset (s : State) : Deed s (hostEngineReset s).2
  | killEdge (s : State) (hk : s.pins.kill = false) (hr : s.pins.inReset = false) : Deed s (killEffect (s.setKill true))

/-- A sequence of deeds. -/
abbrev Deeds : State → State → Prop := Relation.ReflTransGen Deed

theorem Deeds.keeps {s t : State} (h : Deeds s t) (P : State → Prop) (hP : ∀ x y, Deed x y → P x → P y) (hs : P s) : P t := by
  induction h with
  | refl => exact hs
  | tail _ hd ih => exact hP _ _ hd ih

theorem Deed.deeds {s t : State} (h : Deed s t) : Deeds s t := .single h

/-! ### Commands of the host -/

theorem setCmd_deed (code : Byte) (s : State) : Deed s (setCmd code s) := .bus s { s.bus with cmd := code } rfl

theorem answer_deeds (v : Verdict) (s : State) : Deeds s (answer v s) := by
  have told : Deed s { s with bus := { s.bus with res := v.code.code, rdet := v.detail } } := .bus s _ rfl
  unfold answer
  split
  · exact told.deeds.tail (.judged _ _ s.notify.enables s.notify.changed)
  · exact told.deeds

theorem busWrite_deeds {f : State → State} (h : ∀ s : State, s.pins.inReset = false → Deeds s (f s)) (s : State) : Deeds s (busWrite f s) := by
  unfold busWrite
  split
  · exact .refl
  · rename_i hr
    exact h s (by simpa using hr)

theorem hostCommand_deeds (code : Byte) {owner : State → Verdict × State} (h : ∀ s, Deeds s (owner s).2) (s : State) :
    Deeds s (hostCommand code owner s) :=
  busWrite_deeds (fun s _ => ((setCmd_deed code s).deeds.trans (h _)).trans (answer_deeds _ _)) s

theorem ownRails_deeds {f : State → Verdict × Delta} {s : State} (h : Stirs (Delta.of s) (f s).2) : Deeds s (ownRails f s).2 :=
  (Deed.event s _ h).deeds

theorem judgeDefine_deeds (p : PlanNo) (x : Plan) (s : State) (hx : x.state = .defining) (hl : 1 ≤ x.length ∧ x.length ≤ 16)
    (hw : x.unwind ≠ some p) : Deeds s (judgeDefine p x s).2 := by
  unfold judgeDefine
  split
  · exact .refl
  · rename_i hu
    split
    · exact .refl
    · rename_i hd
      refine (Deed.define s p x hu ?_ hx hl hw).deeds
      by_cases h : s.store.defining = some p
      · exact .inr h
      · exact .inl (by simpa [h] using hd)

theorem hostDefine_deeds (s : State) : Deeds s (hostDefine s).2 := by
  unfold hostDefine
  split
  · split
    · exact .refl
    · rename_i hn
      push Not at hn
      exact judgeDefine_deeds _ _ s rfl ⟨Nat.one_le_iff_ne_zero.mpr hn.1, hn.2.1⟩ hn.2.2
  · exact .refl

theorem hostCommit_deeds (s : State) : Deeds s (hostCommit s).2 := by
  unfold hostCommit
  split
  · exact .refl
  · split
    · exact .refl
    · split
      · exact .refl
      · exact (Deed.commit s _ (by assumption)).deeds

theorem hostErase_deeds (s : State) : Deeds s (hostErase s).2 := by
  unfold hostErase
  split
  · exact .refl
  · split
    · exact .refl
    · split
      · exact .refl
      · exact (Deed.erase s _ (by assumption)).deeds

theorem hostRun_deeds (s : State) : Deeds s (hostRun s).2 := by
  unfold hostRun
  split
  · exact .refl
  · by_cases hk : s.pins.kill = true
    · rw [if_pos hk]
    · rw [if_neg hk]
      split
      · exact .refl
      · rename_i hr
        split
        · exact .refl
        · split
          · exact .refl
          · rename_i hl
            exact (Deed.join s _ (by simpa using hk) (by simpa using hr) (by assumption) (Nat.lt_of_not_le hl)).deeds

theorem hostCancel_deeds (s : State) : Deeds s (hostCancel s).2 := by
  unfold hostCancel
  split
  · exact .refl
  · split
    · exact .refl
    · exact (Deed.cancel s _).deeds

theorem hostRelease_deeds (s : State) : Deeds s (hostRelease s).2 := by
  unfold hostRelease
  split
  · split
    · exact (Deed.release s _ (by assumption)).deeds
    · exact .refl
  · exact .refl

theorem hostAbort_deeds (s : State) : Deeds s (hostAbort s).2 := by
  cases h : s.engine.run with
  | none => simp only [hostAbort, h]; exact .refl
  | some run => exact (Deed.abort s run h).deeds

theorem hostLogPop_deeds (s : State) : Deeds s (hostLogPop s).2 := by
  unfold hostLogPop
  split
  · exact .refl
  · exact (Deed.popped s _ _ (by assumption)).deeds

theorem hostShedAck_deeds (s : State) : Deeds s (hostShedAck s).2 := by
  unfold hostShedAck
  split_ifs with h hk
  · exact .refl
  · exact .refl
  · split
    · exact .refl
    · exact (Deed.acked s (by simpa using hk) (by assumption)).deeds

theorem hostWriteRail_deeds (s : State) : Deeds s (hostWriteRail s).2 := by
  unfold hostWriteRail
  split
  · exact .refl
  · dsimp only
    split
    · exact (Deed.write s _ (by assumption)).deeds
    · exact .refl

theorem hostLoadRail_deeds (s : State) : Deeds s (hostLoadRail s).2 := by
  unfold hostLoadRail
  split
  · exact .refl
  · exact .single (.bus s _ rfl)

/-- What each of the eighteen commands does to the part. -/
theorem ownerOf_deeds (c : Command) (s : State) : Deeds s (ownerOf c s).2 := by
  cases c with
  | raise => exact ownRails_deeds (railCommandOf_stirs accepts_raise _ s)
  | lower => exact ownRails_deeds (railCommandOf_stirs accepts_lower _ s)
  | clear => exact ownRails_deeds (railCommandOf_stirs accepts_clear _ s)
  | raiseGroup => exact ownRails_deeds (groupCommandOf_stirs (fun t m => groupEach_stirs accepts_raise t m s) _ _)
  | lowerGroup => exact ownRails_deeds (groupCommandOf_stirs (fun t m => groupLower_stirs t m s) _ _)
  | clearGroup => exact ownRails_deeds (groupCommandOf_stirs (fun t m => groupEach_stirs accepts_clear t m s) _ _)
  | loadRail => exact hostLoadRail_deeds s
  | writeRail => exact hostWriteRail_deeds s
  | define => exact hostDefine_deeds s
  | commit => exact hostCommit_deeds s
  | erase => exact hostErase_deeds s
  | run => exact hostRun_deeds s
  | cancel => exact hostCancel_deeds s
  | release => exact hostRelease_deeds s
  | abort => exact hostAbort_deeds s
  | logPop => exact hostLogPop_deeds s
  | shedAck => exact hostShedAck_deeds s
  | engineReset => exact (Deed.engineReset s).deeds

theorem command_deeds (c : Command) (s : State) : Deeds s (hostCommand c.code (ownerOf c) s) :=
  hostCommand_deeds c.code (fun s => ownerOf_deeds c s) s

theorem writeCmd_deeds (code : Byte) (s : State) : Deeds s (writeCmd code s) := by
  unfold writeCmd
  split
  · exact hostCommand_deeds code (fun s => ownerOf_deeds _ s) s
  · exact hostCommand_deeds code (fun _ => .refl) s

/-! ### The window -/

theorem takeCopy_deeds (s : State) : Deeds s (takeCopy s) := by
  unfold takeCopy
  split
  · exact .refl
  · split
    · exact .single (.bus s _ rfl)
    · exact .refl

theorem advancePointer_deed (s : State) : Deed s (advancePointer s) := .bus s { s.bus with tptr := _ } rfl

theorem readTdata_deeds (s : State) : Deeds s (readTdata s).2 := by
  unfold readTdata
  dsimp only
  split
  · exact (takeCopy_deeds s).tail (advancePointer_deed _)
  · exact (advancePointer_deed s).deeds

theorem writeTdata_deeds (v : Byte) (s : State) : Deeds s (writeTdata v s) := by
  refine .tail ?_ (advancePointer_deed _)
  split
  · exact .single (.bus s _ rfl)
  · exact (Deed.storeStep s v).deeds
  · exact .refl

theorem busRead_deeds {f : State → Byte × State} (h : ∀ s, Deeds s (f s).2) (s : State) : Deeds s (busRead f s) := by
  unfold busRead
  split
  · exact (Deed.bus s { s.bus with lastRead := 0 } rfl).deeds
  · exact (h s).tail (.bus _ { (f s).2.bus with lastRead := (f s).1 } rfl)

theorem readUpt0_deed (s : State) : Deed s (readUpt0 s).2 := .bus s { s.bus with uptimeLatch := s.log.uptime.extractLsb' 8 24 } rfl
theorem readEngstLow_deed (s : State) : Deed s (readEngstLow s).2 := .bus s { s.bus with engstLatch := s.stepShown } rfl
theorem writeEvt_deed (v : Byte) (s : State) : Deed s (writeEvt v s) := .judged s _ s.notify.enables s.notify.changed
theorem writeEven_deed (v : Byte) (s : State) : Deed s (writeEven v s) := .judged s s.notify.flags v s.notify.changed
theorem writeRchg_deed (upper : Bool) (v : Byte) (s : State) : Deed s (writeRchg upper v s) := .judged s s.notify.flags s.notify.enables _
theorem writeEcfg_deed (v : Byte) (s : State) : Deed s (writeEcfg v s) := .config s _ _
theorem writeTsel_deeds (v : Byte) (s : State) : Deeds s (writeTsel v s) :=
  (Deed.bus s { s.bus with tsel := v } rfl).deeds.trans (takeCopy_deeds _)
theorem writeTidx_deeds (v : Byte) (s : State) : Deeds s (writeTidx v s) :=
  (Deed.bus s { s.bus with tidx := v } rfl).deeds.trans (takeCopy_deeds _)
theorem writeTptr_deed (v : Byte) (s : State) : Deed s (writeTptr v s) := .bus s { s.bus with tptr := v } rfl
theorem writeArg_deed (i : Fin 4) (v : Byte) (s : State) : Deed s (writeArg i v s) := by
  unfold writeArg
  split
  · exact .bus s { s.bus with arg0 := v } rfl
  · exact .bus s { s.bus with arg1 := v } rfl
  · exact .bus s { s.bus with arg2 := v } rfl
  · exact .bus s { s.bus with arg3 := v } rfl

theorem writeLocation_deeds (addr : Addr) (v : Byte) (s : State) : Deeds s (writeLocation addr v s) := by
  unfold writeLocation
  split
  · exact busWrite_deeds (fun s _ => (writeEvt_deed v s).deeds) s
  · exact busWrite_deeds (fun s _ => (writeEven_deed v s).deeds) s
  · exact busWrite_deeds (fun s _ => (writeRchg_deed false v s).deeds) s
  · exact busWrite_deeds (fun s _ => (writeRchg_deed true v s).deeds) s
  · exact writeCmd_deeds v s
  · exact busWrite_deeds (fun s _ => (writeArg_deed 0 v s).deeds) s
  · exact busWrite_deeds (fun s _ => (writeArg_deed 1 v s).deeds) s
  · exact busWrite_deeds (fun s _ => (writeArg_deed 2 v s).deeds) s
  · exact busWrite_deeds (fun s _ => (writeArg_deed 3 v s).deeds) s
  · exact busWrite_deeds (fun s _ => (writeEcfg_deed v s).deeds) s
  · exact busWrite_deeds (fun s _ => writeTsel_deeds v s) s
  · exact busWrite_deeds (fun s _ => writeTidx_deeds v s) s
  · exact busWrite_deeds (fun s _ => (writeTptr_deed v s).deeds) s
  · exact busWrite_deeds (fun s _ => writeTdata_deeds v s) s
  · exact .refl

/-! ### Inputs, arrivals and expiries -/

theorem senseVoltage_deed (r : Rail) (mv : Nat) (s : State) : Deed s (s.senseVoltage r mv) := .rail s r _ rfl rfl

theorem senseCurrent_deed (r : Rail) (ma : Nat) (s : State) : Deed s (s.senseCurrent r ma) := .rail s r _ rfl rfl

/-- A lawful transition of one rail, handed on. -/
theorem finish_onRail_deed (r : Rail) (f : RailStep → RailStep) (s : State) (h : Lawful s.pins.kill (s.rail r) (f (.of (s.rail r)))) :
    Deed s (finish (onRail r f (Delta.of s))) := .event s _ (.single (.rail r f h))

theorem zoneArrival_deeds (r : Rail) (z : Zone) (mv : Nat) (s : State) : Deeds s (zoneArrival r z mv s) := by
  unfold zoneArrival
  split_ifs
  · exact (senseVoltage_deed r mv s).deeds
  · exact .refl
  · exact .single (.rail s r _ rfl rfl)
  · exact (senseVoltage_deed r mv s).deeds.tail (finish_onRail_deed r _ _ (takeZone_lawful _ _ _ _))

theorem overCurrentArrival_deeds (r : Rail) (b : Bool) (ma : Nat) (s : State) : Deeds s (overCurrentArrival r b ma s) := by
  unfold overCurrentArrival
  split_ifs
  · exact (senseCurrent_deed r ma s).deeds
  · exact .refl
  · exact .single (.rail s r _ rfl rfl)
  · exact (senseCurrent_deed r ma s).deeds.tail (finish_onRail_deed r _ _ (takeFlag_lawful _ _ _ _))

theorem foldl_deeds {α : Type} {f : State → α → State} (h : ∀ (s : State) (x : α), Deeds s (f s x)) (l : List α) (s : State) :
    Deeds s (l.foldl f s) := by
  induction l generalizing s with
  | nil => exact .refl
  | cons x l ih => exact (h s x).trans (ih _)

theorem setXf_deed (s : State) (x : XfInput) (level : Bool) : Deed s (s.setXf x level) := by
  cases x with
  | xf0 => exact .pins s { s.pins with xf0 := level } rfl (fun _ h => h)
  | xf1 => exact .pins s { s.pins with xf1 := level } rfl (fun _ h => h)

theorem xfAssertion_deeds (x : XfInput) (s : State) : Deeds s (xfAssertion x s) := by
  unfold xfAssertion
  split_ifs
  · exact .refl
  · exact (setXf_deed s x true).deeds
  · refine ((setXf_deed s x true).deeds.tail (.free _ _)).trans (foldl_deeds (fun t r => ?_) _ _)
    exact (finish_onRail_deed r _ t (railXfAssert_lawful _ _ _)).deeds

theorem railXfDeassert_same (c : RailChan) : (railXfDeassert c).cfg = c.cfg ∧ (railXfDeassert c).state = c.state := by
  unfold railXfDeassert
  split
  · exact ⟨rfl, rfl⟩
  · exact ⟨rfl, rfl⟩

theorem xfDeassertion_deeds (x : XfInput) (s : State) : Deeds s (xfDeassertion x s) := by
  unfold xfDeassertion
  split_ifs
  · exact .refl
  · exact (setXf_deed s x false).deeds
  · refine (setXf_deed s x false).deeds.trans (foldl_deeds (fun t r => ?_) _ _)
    exact (Deed.rail t r _ (railXfDeassert_same _).1 (railXfDeassert_same _).2).deeds

theorem setPwrreq_deed (s : State) (level : Bool) : Deed s (s.setPwrreq level) :=
  .pins s { s.pins with pwrreq := level } rfl (fun _ h => h)

theorem pwrRequest_deeds (s : State) : Deeds s (pwrRequest s) := by
  unfold pwrRequest
  by_cases hk : s.pins.kill = true
  · rw [if_pos hk]
  · rw [if_neg hk]
    split
    · exact .refl
    · split_ifs with hr hq hl
      · exact (Deed.record s _ _ _).deeds
      · exact .refl
      · exact (Deed.record s _ _ _).deeds
      · exact (Deed.join s _ (by simpa using hk) (by simpa using hr) (by simpa using hq) (Nat.lt_of_not_le hl)).deeds

theorem killAssertion_deeds (s : State) : Deeds s (killAssertion s) := by
  unfold killAssertion
  split_ifs with hk hr
  · exact .refl
  · exact (Deed.pins s { s.pins with kill := true } rfl (fun h => by simp [h] at hr)).deeds
  · exact (Deed.killEdge s (by simpa using hk) (by simpa using hr)).deeds

theorem killDeassertion_deeds (s : State) : Deeds s (killDeassertion s) := by
  have level : Deed s (s.setKill false) := .pins s { s.pins with kill := false } rfl (fun _ h => by cases h)
  unfold killDeassertion
  split_ifs
  · exact .refl
  · exact level.deeds
  · exact level.deeds.tail (.judged _ _ s.notify.enables s.notify.changed)

theorem retryExpiry_deed (r : Rail) (s : State) : Deed s (retryExpiry r s) := finish_onRail_deed r _ s (railRetryExpiry_lawful _ _ _ _ _ _)

/-! ### Every command -/

/-- A command that is no reset and not the millisecond tick. -/
def Instr.ordinary (c : Instr) : Prop := c ≠ .powerOnReset ∧ c ≠ .resetAssertion ∧ c ≠ .resetDeassertion ∧ c ≠ .uptimeTick

/-- Every command but the resets and the tick is a sequence of deeds. -/
theorem exec_deeds {c : Instr} {s t : State} (h : exec c s = .next t) (hc : Instr.ordinary c) : Deeds s t := by
  obtain ⟨hpower, hassert, hdeassert, htick⟩ := hc
  cases c <;> injection h with h <;> subst h
  case powerOnReset => exact absurd rfl hpower
  case resetAssertion => exact absurd rfl hassert
  case resetDeassertion => exact absurd rfl hdeassert
  case uptimeTick => exact absurd rfl htick
  case raise => exact command_deeds .raise s
  case lower => exact command_deeds .lower s
  case clear => exact command_deeds .clear s
  case raiseGroup => exact command_deeds .raiseGroup s
  case lowerGroup => exact command_deeds .lowerGroup s
  case clearGroup => exact command_deeds .clearGroup s
  case loadRail => exact command_deeds .loadRail s
  case writeRail => exact command_deeds .writeRail s
  case define => exact command_deeds .define s
  case commit => exact command_deeds .commit s
  case erase => exact command_deeds .erase s
  case run => exact command_deeds .run s
  case cancel => exact command_deeds .cancel s
  case release => exact command_deeds .release s
  case abort => exact command_deeds .abort s
  case logPop => exact command_deeds .logPop s
  case shedAck => exact command_deeds .shedAck s
  case engineReset => exact command_deeds .engineReset s
  case badCommand code => exact writeCmd_deeds code s
  case evtWrite v => exact busWrite_deeds (fun s _ => (writeEvt_deed v s).deeds) s
  case evenWrite v => exact busWrite_deeds (fun s _ => (writeEven_deed v s).deeds) s
  case rchgWrite u v => exact busWrite_deeds (fun s _ => (writeRchg_deed u v s).deeds) s
  case ecfgWrite v => exact busWrite_deeds (fun s _ => (writeEcfg_deed v s).deeds) s
  case tselWrite v => exact busWrite_deeds (fun s _ => writeTsel_deeds v s) s
  case tidxWrite v => exact busWrite_deeds (fun s _ => writeTidx_deeds v s) s
  case tdataRead => exact busRead_deeds readTdata_deeds s
  case tdataWrite v => exact busWrite_deeds (fun s _ => writeTdata_deeds v s) s
  case upt0Read => exact busRead_deeds (fun s => (readUpt0_deed s).deeds) s
  case engstLowRead => exact busRead_deeds (fun s => (readEngstLow_deed s).deeds) s
  case registerWrite a v => exact writeLocation_deeds a v s
  case killAssertionEdge => exact killAssertion_deeds s
  case killDeassertionEdge => exact killDeassertion_deeds s
  case xfAssertionEdge x => exact xfAssertion_deeds x s
  case xfDeassertionEdge x => exact xfDeassertion_deeds x s
  case pwrreqFallingEdge =>
    simp only [pwrreqFalling]
    split_ifs
    · exact .refl
    · exact (setPwrreq_deed s true).deeds
    · exact (setPwrreq_deed s true).deeds.trans (pwrRequest_deeds _)
  case pwrreqRisingEdge => exact (setPwrreq_deed s false).deeds
  case zoneArrival r z mv => exact zoneArrival_deeds r z mv s
  case overCurrentArrival r b ma => exact overCurrentArrival_deeds r b ma s
  case rampExpiry r => exact (finish_onRail_deed r _ s (railRampExpiry_lawful _ _ _)).deeds
  case settleExpiry r => exact (finish_onRail_deed r _ s (railSettleExpiry_lawful _ _)).deeds
  case dischargeExpiry r => exact (finish_onRail_deed r _ s (railDischargeExpiry_lawful _ _)).deeds
  case backfeedFilterExpiry r => exact (finish_onRail_deed r _ s (railBackfeedExpiry_lawful _ _)).deeds
  case uvFilterExpiry r => exact (finish_onRail_deed r _ s (railUvExpiry_lawful _ _ _)).deeds
  case ocFilterExpiry r => exact (finish_onRail_deed r _ s (railOcExpiry_lawful _ _ _)).deeds
  case retryExpiry r => exact (retryExpiry_deed r s).deeds
  case quietExpiry => exact (Deed.quietExpiry s).deeds
  case stepTimerExpiry => exact (Deed.stepTimerExpiry s).deeds
  case holdExpiry => exact (Deed.holdExpiry s).deeds

/-- A law of the part that each deed, each reset and the tick keep is kept by every step. The waiting commands are no business of it. -/
theorem step_keeps {P : State → Prop} (pending : ∀ s l, P s → P (s.withPending l)) (deed : ∀ x y, Deed x y → P x → P y)
    (tick : ∀ s, P s → P (uptimeTick s)) (power : ∀ s, P s → P (powerOn s)) (assert : ∀ s, P s → P (resetAssert s))
    (deassert : ∀ s, P s → P (resetDeassert s)) {s t : State} (h : step s = .next t) (hs : P s) : P t := by
  unfold step at h
  split at h
  · injection h with h
    exact h ▸ hs
  · rename_i c l _
    have hs' := pending s l hs
    by_cases hc : Instr.ordinary c
    · exact (exec_deeds h hc).keeps P deed hs'
    · simp only [Instr.ordinary, ne_eq, not_and_or, not_not] at hc
      rcases hc with rfl | rfl | rfl | rfl <;> injection h with h <;> subst h
      · exact power _ hs'
      · exact assert _ hs'
      · exact deassert _ hs'
      · exact tick _ hs'

end Sys2Proof.Machine
end

section
/-! PROOFS. The laws of the reporting side (R146 to R148, R158, R164), the uptime counter (R156) and the laws of the plan store (R77 to R85). Each is kept by
the single acts of an event, so by every deed that is made of acts; what is left are the deeds that replace a record, the log or the store. -/

namespace Sys2Proof.Machine

/-! ### Deeds made of acts -/

theorem killRails_acts (s : State) : Acts s (killRails s).s := by
  have each (l : List Rail) (d : Delta) : Acts d.s (l.foldl (fun d r => onRail r (railKill d.s.now) d) d).s := by
    induction l generalizing d with
    | nil => exact .refl
    | cons r l ih =>
      have cfg : (railKill d.s.now (.of (d.s.rail r))).rc.cfg = (d.s.rail r).cfg := (railKill_takesDown d.s.now).cfg _
      exact .head (.rail d.s r _ cfg) ((commit_acts r _ d).trans (ih (onRail r (railKill d.s.now) d)))
  exact each allRails (Delta.of s)

theorem killEffect_acts (s : State) : Acts s (killEffect s) := (killRails_acts s).trans (killRails_moves s).acts

/-- The end of a reset acts on the part at its reset values. -/
theorem endOfReset_acts (s : State) : Acts (resetBlocks s) (endOfReset s) := by
  have restart : Act (resetBlocks s) (setFlag .restart (resetBlocks s)) :=
    .judged _ _ (resetBlocks s).notify.enables (resetBlocks s).notify.changed
  unfold endOfReset
  dsimp only
  split
  · exact .head restart (killEffect_acts _)
  · exact restart.acts

/-- The acts of an accepted WRITE_RAIL begin after the record has been replaced, and FLT# is recomputed after them (R8). -/
theorem applyWrite_acts (s : State) (r : Rail) :
    ∃ (c : RailChan) (y : State), Acts ((nextFree s).setRail r c) y ∧ applyWrite s r = recomputeFlt y :=
  ⟨_, _, (commit_acts r _ (Delta.of (nextFree s))).trans (finish_moves _).acts, rfl⟩

theorem hostAbort_acts (s : State) : Acts s (hostAbort s).2 := (hostAbort_moves s).acts

theorem hostEngineReset_acts (s : State) :
    ∃ y, Acts s y ∧ (hostEngineReset s).2 = setFlag .restart (emptyDefining y) ∧ y.store = s.store ∧ y.bus.writeCount = s.bus.writeCount :=
  ⟨_, Moves.acts (((stopRun_moves .reset s).trans (Move.timers _ none none none).moves).trans
      ((Move.queue _ []).moves.trans (Move.slot _ none).moves)), rfl, by
    simp only [setSlot_store, setQueue_store, setEngineTimers_store, setSlot_bus, setQueue_bus, setEngineTimers_bus]
    cases h : s.engine.run with
    | none => simp [stopRun_of_none _ h]
    | some run => rw [stopRun_reset_of_some h]; exact ⟨rfl, rfl⟩⟩

theorem release_acts (run : Run) (s : State) :
    Acts s (finishWork (nextSteps run { s := s.setEngineTimers s.engine.quietT s.engine.stepT none, reqs := [] })) :=
  Moves.acts (((Move.timers s _ _ _).moves.trans (nextSteps_moves run { s := s.setEngineTimers _ _ none, reqs := [] })).trans
    (finishWork_moves _))

/-- A law that sees nothing but the rails, the log, the notification unit and the requests, and is kept by each act. -/
structure ActLaw (P : State → Prop) : Prop where
  act : ∀ s t, Act s t → P s → P t
  sees : ∀ s t, t.rails = s.rails → t.log = s.log → t.notify = s.notify → t.requests = s.requests → P s → P t
  write : ∀ s r, P s → P (applyWrite s r)
  popped : ∀ s x l, s.log.records = x :: l → P s → P (recomputeFlt (s.setRecords l))
  config : ∀ s p pin, P s → P (recomputeFlt { s with requests := { s.requests with pwrPlan := p, enginePin := pin } })

theorem ActLaw.acts {P : State → Prop} (L : ActLaw P) {s t : State} (h : Acts s t) (hs : P s) : P t := h.keeps P L.act hs

theorem ActLaw.emptyPlan {P : State → Prop} (L : ActLaw P) (p : PlanNo) (s : State) (hs : P s) : P (emptyPlan p s) := by
  unfold Machine.emptyPlan
  dsimp only
  split
  · exact L.sees s _ rfl rfl rfl rfl hs
  · exact L.sees s _ rfl rfl rfl rfl hs

theorem ActLaw.deed {P : State → Prop} (L : ActLaw P) {s t : State} (h : Deed s t) (hs : P s) : P t := by
  cases h with
  | rail r c hc => exact L.act _ _ (.rail s r c hc) hs
  | event d hd => exact L.acts (hd.acts.trans (finish_moves d).acts) hs
  | write r => exact L.write s r hs
  | record kind role c => exact L.acts (Move.record s kind role c).acts hs
  | judged f e c => exact L.act _ _ (.judged s f e c) hs
  | acked => exact L.act _ _ (.shed s false) hs
  | popped x l h => exact L.popped s x l h hs
  | config p pin => exact L.config s p pin hs
  | bus | pins | free | define | commit => exact L.sees s _ rfl rfl rfl rfl hs
  | erase p => exact L.emptyPlan p s hs
  | storeStep v =>
    unfold Machine.storeStep
    split
    · exact hs
    · split
      · exact L.sees s _ rfl rfl rfl rfl hs
      · exact hs
  | join e => exact L.acts (joinQueue_moves e s).acts hs
  | cancel i => exact L.acts (Move.queue s _).acts hs
  | release run =>
    exact L.acts (release_acts run s) hs
  | abort => exact L.acts (hostAbort_acts s) hs
  | quietExpiry => exact L.acts (quietExpiry_moves s).acts hs
  | stepTimerExpiry => exact L.acts (stepTimerExpiry_moves s).acts hs
  | holdExpiry => exact L.acts (holdExpiry_moves s).acts hs
  | engineReset =>
    obtain ⟨y, hy, he, -, -⟩ := hostEngineReset_acts s
    rw [he]
    refine L.act _ _ (.judged _ _ _ _) ?_
    unfold emptyDefining
    split
    · exact L.emptyPlan _ y (L.acts hy hs)
    · exact L.acts hy hs
  | killEdge => exact L.acts (killEffect_acts _) (L.sees s _ rfl rfl rfl rfl hs)

/-- A law kept by the acts, which the reset values obey, is kept by every step. -/
theorem ActLaw.step {P : State → Prop} (L : ActLaw P) (tick : ∀ s, P s → P (uptimeTick s)) (reset : ∀ s, P (resetBlocks s)) {s t : State}
    (h : step s = .next t) (hs : P s) : P t := by
  have ended (s : State) : P (endOfReset s) := L.acts (endOfReset_acts s) (reset s)
  refine step_keeps (fun s l h => L.sees s _ rfl rfl rfl rfl h) (fun _ _ hd => L.deed hd) tick (fun s _ => ?_) (fun s h => ?_) (fun s h => ?_) h hs
  · unfold powerOn
    split
    · exact reset s
    · exact ended s
  · unfold resetAssert
    split
    · exact h
    · exact reset _
  · unfold resetDeassert
    split
    · exact ended _
    · exact h

/-! ### INT# -/

theorem judged_intLaw (s : State) (n : Notify) : (s.setNotify n.judge).intLaw := by
  simp [State.intLaw, Notify.judge, Notify.evt]

theorem intLaw_congr {s t : State} (h : t.notify = s.notify) (hs : s.intLaw) : t.intLaw := by
  unfold State.intLaw
  rwa [h]

theorem setFlag_intLaw (f : EventFlag) (s : State) : (setFlag f s).intLaw := judged_intLaw s _

theorem logFault_intLaw (x : Subject) (context : Option PlanContext) (s : State) : (logFault x context s).intLaw := by
  unfold logFault
  split
  · exact setFlag_intLaw .fault _
  · exact intLaw_congr rfl (setFlag_intLaw .fault _)

theorem Act.intLaw {s t : State} (h : Act s t) (hs : s.intLaw) : t.intLaw := by
  cases h with
  | rail | engine | waiting => exact intLaw_congr rfl hs
  | fault x context => exact logFault_intLaw x context s
  | judged => exact judged_intLaw s _
  | shed => exact hs

theorem intLaw_actLaw : ActLaw State.intLaw where
  act _ _ := Act.intLaw
  sees _ _ _ _ h _ := intLaw_congr h
  write s r h := by
    obtain ⟨c, y, hy, he⟩ := applyWrite_acts s r
    rw [he]
    exact intLaw_congr rfl (hy.keeps State.intLaw (fun _ _ => Act.intLaw) (intLaw_congr rfl h))
  popped _ _ _ _ h := intLaw_congr rfl h
  config _ _ _ h := intLaw_congr rfl h

/-- Settles O7: every act judges INT# again or leaves flags, enables and INT# alone. -/
theorem stepKeepsIntLaw : Obligations.StepKeepsIntLaw := by
  intro s t h hs
  refine intLaw_actLaw.step (fun s h => ?_) (fun s => ?_) h hs
  · unfold uptimeTick
    split
    · exact h
    · exact intLaw_congr rfl h
  · simp [State.intLaw, resetBlocks, Notify.held, Notify.evt]

/-! ### FLT# -/

theorem fltLaw_iff {s : State} : s.fltLaw ↔ s.log.flt = s.fltLevel := by
  rw [State.fltLaw, ← fltLevel_eq_true]
  exact Bool.eq_iff_iff.symm

/-- FLT# depends on the pin members of the records alone. -/
theorem fltLevel_congr {s t : State} (hl : t.log.records = s.log.records) (hm : ∀ x, t.pinMember x = s.pinMember x) :
    t.fltLevel = s.fltLevel := by
  simp [State.fltLevel, hl, hm]

theorem fltLaw_congr {s t : State} (hl : t.log = s.log) (hm : ∀ x, t.pinMember x = s.pinMember x) (hs : s.fltLaw) : t.fltLaw := by
  rw [fltLaw_iff] at hs ⊢
  rw [hl, hs, fltLevel_congr (by rw [hl]) hm]

theorem pinMember_congr {s t : State} (hc : ∀ r, (t.rail r).cfg = (s.rail r).cfg) (hp : t.requests.enginePin = s.requests.enginePin)
    (x : Subject) : t.pinMember x = s.pinMember x := by
  cases x with
  | rail r => simp [State.pinMember, hc]
  | engine => exact hp

theorem setRail_cfg {s : State} {r : Rail} {c : RailChan} (hc : c.cfg = (s.rail r).cfg) (x : Rail) :
    ((s.setRail r c).rail x).cfg = (s.rail x).cfg := by
  rw [setRail_rail]
  split
  · rename_i h; rw [hc, h]
  · rfl

theorem logFault_fltLaw (x : Subject) (context : Option PlanContext) (s : State) (hs : s.fltLaw) : (logFault x context s).fltLaw := by
  unfold logFault
  split
  · rw [fltLaw_iff] at hs ⊢
    refine hs.trans ?_
    have same (y : LogRecord) : (if y.from x.source then y.merge x.firstCode s.now else y).subject = y.subject := by
      split <;> rfl
    simp only [State.fltLevel, setFlag_log, setRecords_log, List.any_map, Function.comp_def, same]
    rfl
  · exact recomputeFlt_fltLaw _

theorem Act.fltLaw {s t : State} (h : Act s t) (hs : s.fltLaw) : t.fltLaw := by
  cases h with
  | rail r c hc => exact fltLaw_congr (s := s) rfl (pinMember_congr (setRail_cfg hc) rfl) hs
  | fault x context => exact logFault_fltLaw x context s hs
  | judged | shed | engine | waiting => exact fltLaw_congr (s := s) rfl (pinMember_congr (fun _ => rfl) rfl) hs

theorem rail_congr {s t : State} (h : t.rails = s.rails) (r : Rail) : t.rail r = s.rail r := by
  simp only [State.rail, h]

theorem fltLaw_actLaw : ActLaw State.fltLaw where
  act _ _ := Act.fltLaw
  sees _ _ hr hl _ hq := fltLaw_congr hl (pinMember_congr (fun x => by rw [rail_congr hr]) (by rw [hq]))
  write _ _ _ := recomputeFlt_fltLaw _
  popped _ _ _ _ _ := recomputeFlt_fltLaw _
  config _ _ _ _ := recomputeFlt_fltLaw _

/-- Settles O8: an act keeps the pin members of the records or FLT# is recomputed. -/
theorem stepKeepsFltLaw : Obligations.StepKeepsFltLaw := by
  intro s t h hs
  refine fltLaw_actLaw.step (fun s h => ?_) (fun s => ?_) h hs
  · unfold uptimeTick
    split
    · exact h
    · exact h
  · simp [State.fltLaw, resetBlocks, FaultLog.reset]

/-! ### The fault log -/

theorem firstCode_lt (x : Subject) : x.firstCode - 1 < 8 := by
  cases x with
  | rail r k => cases k <;> simp [Subject.firstCode, FaultKind.code]
  | engine k => cases k <;> simp [Subject.firstCode, EngineKind.code]

theorem LogRecord.law_opened (x : Subject) (now : Uptime) (context : Option PlanContext) (hx : x.causeLawful) :
    (LogRecord.opened x now context).law := by
  refine ⟨le_refl 1, by simp [LogRecord.opened], ?_, hx⟩
  simp [LogRecord.opened, hasKind, kindBit, firstCode_lt]

theorem LogRecord.law_merge {x : LogRecord} (code : Nat) (now : Uptime) (h : x.law) : (x.merge code now).law := by
  obtain ⟨hmin, hmax, hkind, hcause⟩ := h
  refine ⟨?_, ?_, ?_, hcause⟩
  · simp only [LogRecord.merge]; omega
  · simp only [LogRecord.merge]; omega
  · simp only [LogRecord.merge, hasKind, BitVec.getLsbD_or] at hkind ⊢
    simp [hkind]

theorem logLaw_congr {s t : State} (h : t.log.records = s.log.records) (hs : s.logLaw) : t.logLaw := by
  unfold State.logLaw FaultLog.oneEach
  rwa [h]

theorem merged_records_logLaw {s : State} (x : Subject) (hs : s.logLaw) :
    (s.setRecords (s.log.records.map (fun y => if y.from x.source then y.merge x.firstCode s.now else y))).logLaw := by
  obtain ⟨hone, hlaw⟩ := hs
  refine ⟨?_, fun y hy => ?_⟩
  · have same : (fun y : LogRecord => y.subject.source) ∘ (fun y => if y.from x.source then y.merge x.firstCode s.now else y)
        = fun y : LogRecord => y.subject.source := by
      funext y
      simp only [Function.comp_apply]
      split <;> rfl
    simpa only [FaultLog.oneEach, setRecords_log, List.map_map, same] using hone
  · obtain ⟨z, hz, rfl⟩ := List.mem_map.mp hy
    split
    · exact LogRecord.law_merge _ _ (hlaw z hz)
    · exact hlaw z hz

theorem opened_record_logLaw {s : State} (x : Subject) (context : Option PlanContext) (hx : x.causeLawful)
    (hn : ¬ s.log.records.any (fun y => y.from x.source) = true) (hs : s.logLaw) :
    (s.setRecords (s.log.records ++ [LogRecord.opened x s.now context])).logLaw := by
  obtain ⟨hone, hlaw⟩ := hs
  refine ⟨?_, fun y hy => ?_⟩
  · simp only [FaultLog.oneEach, setRecords_log, List.map_append, List.map_cons, List.map_nil, List.nodup_append]
    refine ⟨hone, by simp, fun a ha b hb => ?_⟩
    obtain ⟨y, hy, rfl⟩ := List.mem_map.mp ha
    simp only [List.mem_singleton] at hb
    subst hb
    simp only [List.any_eq_true, LogRecord.from, beq_iff_eq, not_exists, not_and] at hn
    exact hn y hy
  · simp only [setRecords_log, List.mem_append, List.mem_singleton] at hy
    rcases hy with hy | rfl
    · exact hlaw y hy
    · exact LogRecord.law_opened x s.now context hx

theorem logFault_logLaw (x : Subject) (context : Option PlanContext) (s : State) (hx : x.causeLawful) (hs : s.logLaw) :
    (logFault x context s).logLaw := by
  unfold logFault
  split
  · exact logLaw_congr rfl (merged_records_logLaw x hs)
  · rename_i hn
    exact logLaw_congr rfl (opened_record_logLaw x context hx hn hs)

theorem Act.logLaw {s t : State} (h : Act s t) (hs : s.logLaw) : t.logLaw := by
  cases h with
  | rail | judged | shed | engine | waiting => exact logLaw_congr rfl hs
  | fault x context hx => exact logFault_logLaw x context s hx hs

theorem logLaw_actLaw : ActLaw State.logLaw where
  act _ _ := Act.logLaw
  sees _ _ _ hl _ _ := logLaw_congr (by rw [hl])
  write s r h := by
    obtain ⟨c, y, hy, he⟩ := applyWrite_acts s r
    rw [he]
    exact logLaw_congr rfl (hy.keeps State.logLaw (fun _ _ => Act.logLaw) (logLaw_congr rfl h))
  popped s x l hl h := by
    obtain ⟨hone, hlaw⟩ := h
    refine ⟨?_, fun y hy => hlaw y (by rw [hl]; exact .tail _ hy)⟩
    simp only [FaultLog.oneEach, hl, List.map_cons, List.nodup_cons] at hone
    exact hone.2
  config _ _ _ h := logLaw_congr rfl h

/-- Settles O12: a fault merges into the record of its source or opens the only one, and no other act touches the records. -/
theorem stepKeepsLogLaw : Obligations.StepKeepsLogLaw := by
  intro s t h hs
  refine logLaw_actLaw.step (fun s h => ?_) (fun s => ?_) h hs
  · unfold uptimeTick
    split
    · exact h
    · exact logLaw_congr rfl h
  · simp [State.logLaw, FaultLog.oneEach, resetBlocks, FaultLog.reset]

/-! ### The uptime counter -/

theorem logFault_uptime (x : Subject) (context : Option PlanContext) (s : State) : (logFault x context s).log.uptime = s.log.uptime :=
  (State.SameElsewhere.logFault x context s).uptime

theorem Act.uptime {s t : State} (h : Act s t) : t.log.uptime = s.log.uptime := by
  cases h with
  | rail | judged | shed | engine | waiting => rfl
  | fault x context => exact logFault_uptime x context s

theorem Acts.uptime {s t : State} (h : Acts s t) : t.log.uptime = s.log.uptime :=
  h.keeps (fun x => x.log.uptime = s.log.uptime) (fun _ _ ha hx => ha.uptime.trans hx) rfl

theorem uptime_actLaw (n : Uptime) : ActLaw (fun s => s.log.uptime = n) where
  act _ _ h hs := h.uptime.trans hs
  sees _ _ _ hl _ _ hs := (congrArg FaultLog.uptime hl).trans hs
  write s r h := by
    obtain ⟨c, y, hy, he⟩ := applyWrite_acts s r
    rw [he]
    exact hy.uptime.trans h
  popped _ _ _ _ h := h
  config _ _ _ h := h

theorem endOfReset_uptime (s : State) : (endOfReset s).log.uptime = 0 := (endOfReset_acts s).uptime

/-- Settles O5: the tick and the resets by their definitions, every other command by its acts. -/
theorem uptimeMovesByTickAndReset : Obligations.UptimeMovesByTickAndReset := by
  refine ⟨fun s hr => congrArg Host.Outcome.next (if_neg (by simp [hr])), fun s c t h => ?_⟩
  by_cases hc : Instr.ordinary c
  · have same := (exec_deeds h hc).keeps _ (fun _ _ hd => (uptime_actLaw s.log.uptime).deed hd) rfl
    obtain ⟨hpower, hassert, hdeassert, htick⟩ := hc
    rw [same]
    split
    · exact absurd rfl htick
    · exact absurd rfl hpower
    · exact absurd rfl hassert
    · exact absurd rfl hdeassert
    · rfl
  · simp only [Instr.ordinary, ne_eq, not_and_or, not_not] at hc
    rcases hc with rfl | rfl | rfl | rfl <;> injection h with h <;> subst h
    · show (powerOn s).log.uptime = 0
      unfold powerOn
      split
      · rfl
      · exact endOfReset_uptime s
    · show (resetAssert s).log.uptime = _
      unfold resetAssert
      split <;> rfl
    · show (resetDeassert s).log.uptime = _
      unfold resetDeassert
      split
      · exact endOfReset_uptime _
      · rfl
    · show (uptimeTick s).log.uptime = _
      unfold uptimeTick
      split <;> rfl

/-! ### The plan store -/

theorem storeLaw_congr {s t : State} (hs : t.store = s.store) (hw : t.bus.writeCount = s.bus.writeCount) (h : s.storeLaw) : t.storeLaw := by
  unfold State.storeLaw State.plan
  rwa [hs, hw]

theorem Act.store {s t : State} (h : Act s t) : t.store = s.store ∧ t.bus.writeCount = s.bus.writeCount := by
  cases h with
  | rail | judged | shed | engine | waiting => exact ⟨rfl, rfl⟩
  | fault x context => exact ⟨(State.SameElsewhere.logFault x context s).store, by rw [(State.SameElsewhere.logFault x context s).bus]⟩

theorem Acts.store {s t : State} (h : Acts s t) : t.store = s.store ∧ t.bus.writeCount = s.bus.writeCount :=
  h.keeps (fun x => x.store = s.store ∧ x.bus.writeCount = s.bus.writeCount)
    (fun _ _ ha hx => ⟨ha.store.1.trans hx.1, ha.store.2.trans hx.2⟩) ⟨rfl, rfl⟩

theorem Acts.storeLaw {s t : State} (h : Acts s t) (hs : s.storeLaw) : t.storeLaw := storeLaw_congr h.store.1 h.store.2 hs

theorem Moves.storeLaw {s t : State} (h : Moves s t) (hs : s.storeLaw) : t.storeLaw := h.acts.storeLaw hs

theorem applyDefine_storeLaw {s : State} (p : PlanNo) (x : Plan) (hd : s.store.defining = none ∨ s.store.defining = some p)
    (hx : x.state = .defining) (hl : 1 ≤ x.length ∧ x.length ≤ 16) (hw : x.unwind ≠ some p) (h : s.storeLaw) :
    (applyDefine p x s).storeLaw := by
  obtain ⟨hmark, hplan, -⟩ := h
  have plan (q : PlanNo) : (applyDefine p x s).plan q = if p = q then x else s.plan q := setPlan_plan s p q x
  refine ⟨fun q => ?_, fun q => ?_, fun hn => by cases hn⟩
  · show _ ↔ some p = some q
    rw [plan, Option.some.injEq]
    by_cases hpq : p = q
    · simp [hpq, hx]
    · have hq : s.store.defining ≠ some q := by rcases hd with hd | hd <;> simp [hd, hpq]
      simpa [hpq] using fun hs => hq ((hmark q).mp hs)
  · rw [plan]
    by_cases hpq : p = q
    · subst hpq
      simpa using fun _ => ⟨hl.1, hl.2, hw⟩
    · simpa [hpq] using hplan q

theorem committed_storeLaw {s : State} (p : PlanNo) (hd : s.store.defining = some p) (h : s.storeLaw) :
    (((s.setPlan p { s.plan p with state := .ready }).setDefining none).setWriteCount 0).storeLaw := by
  obtain ⟨hmark, hplan, -⟩ := h
  have plan (q : PlanNo) : (((s.setPlan p { s.plan p with state := .ready }).setDefining none).setWriteCount 0).plan q
      = if p = q then { s.plan p with state := .ready } else s.plan q := setPlan_plan s p q _
  refine ⟨fun q => ?_, fun q => ?_, fun _ => rfl⟩
  · show _ ↔ none = some q
    rw [plan]
    by_cases hpq : p = q
    · simp [hpq]
    · have hq : s.store.defining ≠ some q := by simp [hd, hpq]
      simpa [hpq] using fun hs => hq ((hmark q).mp hs)
  · rw [plan]
    by_cases hpq : p = q
    · subst hpq
      have hne : (s.plan p).state ≠ .empty := by simp [(hmark p).mpr hd]
      simpa using hplan p hne
    · simpa [hpq] using hplan q

theorem emptyPlan_storeLaw {s : State} (p : PlanNo) (h : s.storeLaw) : (emptyPlan p s).storeLaw := by
  obtain ⟨hmark, hplan, hcount⟩ := h
  have plan (q : PlanNo) : (emptyPlan p s).plan q = if p = q then Plan.blank else s.plan q := by
    by_cases hd : s.store.defining = some p
    · rw [emptyPlan_of_defining hd]; exact setPlan_plan s p q _
    · rw [emptyPlan_of_not_defining hd]; exact setPlan_plan s p q _
  have mark : (emptyPlan p s).store.defining = if s.store.defining = some p then none else s.store.defining := by
    by_cases hd : s.store.defining = some p
    · rw [emptyPlan_of_defining hd, if_pos hd]; rfl
    · rw [emptyPlan_of_not_defining hd, if_neg hd]; rfl
  refine ⟨fun q => ?_, fun q => ?_, fun hn => ?_⟩
  · rw [plan, mark]
    by_cases hpq : p = q
    · subst hpq
      by_cases hd : s.store.defining = some p <;> simp [hd, Plan.blank]
    · by_cases hd : s.store.defining = some p
      · simp [hpq, hd, hmark q]
      · simp [hpq, hd, hmark q]
  · rw [plan]
    by_cases hpq : p = q
    · simp [hpq, Plan.blank]
    · simpa [hpq] using hplan q
  · by_cases hd : s.store.defining = some p
    · rw [emptyPlan_of_defining hd]; rfl
    · rw [mark, if_neg hd] at hn
      rw [emptyPlan_of_not_defining hd]
      exact hcount hn

theorem storeStep_storeLaw {s : State} (v : Byte) (h : s.storeLaw) : (storeStep v s).storeLaw := by
  obtain ⟨hmark, hplan, hcount⟩ := h
  unfold storeStep
  split
  · exact ⟨hmark, hplan, hcount⟩
  · rename_i p hd
    split
    · refine ⟨fun q => ?_, fun q => ?_, fun hn => ?_⟩
      · show ((s.setPlan p _).plan q).state = _ ↔ s.store.defining = some q
        rw [setPlan_plan, ← hmark q]
        split
        · rename_i e; rw [e]
        · rfl
      · show ((s.setPlan p _).plan q).state ≠ _ → 1 ≤ ((s.setPlan p _).plan q).length ∧ ((s.setPlan p _).plan q).length ≤ 16
          ∧ ((s.setPlan p _).plan q).unwind ≠ _
        rw [setPlan_plan]
        split
        · rename_i e; subst e; exact hplan p
        · exact hplan q
      · exact absurd (show s.store.defining = none from hn) (by simp [hd])
    · exact ⟨hmark, hplan, hcount⟩

theorem Deed.storeLaw {s t : State} (h : Deed s t) (hs : s.storeLaw) : t.storeLaw := by
  cases h with
  | rail | judged | acked | popped | config | pins | free | cancel => exact storeLaw_congr (s := s) rfl rfl hs
  | bus b h => exact storeLaw_congr (s := s) rfl h hs
  | event d hd => exact Acts.storeLaw (hd.acts.trans (finish_moves d).acts) hs
  | write r =>
    obtain ⟨c, y, hy, he⟩ := applyWrite_acts s r
    rw [he]
    exact storeLaw_congr rfl rfl (hy.storeLaw (storeLaw_congr rfl rfl hs))
  | record kind role c => exact (Move.record s kind role c).acts.storeLaw hs
  | define p x _ hd hx hl hw => exact applyDefine_storeLaw p x hd hx hl hw hs
  | commit p hd => exact committed_storeLaw p hd hs
  | erase p => exact emptyPlan_storeLaw p hs
  | storeStep v => exact storeStep_storeLaw v hs
  | join e => exact (joinQueue_moves e s).storeLaw hs
  | release run =>
    exact (release_acts run s).storeLaw hs
  | abort => exact (hostAbort_acts s).storeLaw hs
  | quietExpiry => exact (quietExpiry_moves s).storeLaw hs
  | stepTimerExpiry => exact (stepTimerExpiry_moves s).storeLaw hs
  | holdExpiry => exact (holdExpiry_moves s).storeLaw hs
  | engineReset =>
    obtain ⟨y, hy, he, -, -⟩ := hostEngineReset_acts s
    rw [he]
    refine storeLaw_congr rfl rfl (s := emptyDefining y) ?_
    unfold emptyDefining
    split
    · exact emptyPlan_storeLaw _ (hy.storeLaw hs)
    · exact hy.storeLaw hs
  | killEdge => exact (killEffect_acts _).storeLaw (storeLaw_congr rfl rfl hs)

theorem resetBlocks_storeLaw (s : State) : (resetBlocks s).storeLaw := by
  have plan (p : PlanNo) : (resetBlocks s).plan p = Plan.blank := by simp [State.plan, resetBlocks, PlanStore.reset]
  exact ⟨fun p => by rw [plan]; simp [Plan.blank, resetBlocks, PlanStore.reset], fun p => by rw [plan]; simp [Plan.blank], fun _ => rfl⟩

/-- Settles O14: the plan commands and TDATA writes keep marker, headers and write count in step, and nothing else touches them. -/
theorem stepKeepsStoreLaw : Obligations.StepKeepsStoreLaw := by
  have ended (s : State) : (endOfReset s).storeLaw := (endOfReset_acts s).storeLaw (resetBlocks_storeLaw s)
  intro s t h hs
  refine step_keeps (fun s l h => storeLaw_congr rfl rfl h) (fun _ _ hd => hd.storeLaw) (fun s h => ?_) (fun s _ => ?_) (fun s h => ?_)
    (fun s h => ?_) h hs
  · unfold uptimeTick
    split
    · exact h
    · exact storeLaw_congr rfl rfl h
  · unfold powerOn
    split
    · exact resetBlocks_storeLaw s
    · exact ended s
  · unfold resetAssert
    split
    · exact h
    · exact resetBlocks_storeLaw _
  · unfold resetDeassert
    split
    · exact ended _
    · exact h

end Sys2Proof.Machine
end

section
/-! PROOFS. Everything that the engine and the hand-on of an event can do, said once with what each update rests on: within a run (`Beat`), and between
runs (`Pace`). A law of the run side that holds between two events is kept by each of them, so a request that is taken and the run it becomes are one
pace. -/

namespace Sys2Proof.Machine

/-! ### Beats: updates within a run -/

/-- One update of the engine within a run, or of the notification unit and the log on its behalf. -/
inductive Beat : State → State → Prop where
  | timers (s : State) (a b c : Option Timer) : Beat s (s.setEngineTimers a b c)
  | edit (s : State) (f : Run → Run) (hf : ∀ run, (f run).plan = run.plan ∧ (f run).role = run.role) : Beat s (mapRun f s)
  | report (s : State) (x : Report) : Beat s (s.setReport x)
  | flag (s : State) (f : EventFlag) : Beat s (setFlag f s)
  | changed (s : State) (r : Rail) : Beat s (addChanged r s)
  | shed (s : State) : Beat s (setShed s)
  | record (s : State) (kind : EngineKind) (role : Role) (c : PlanContext) : Beat s (logEngine kind role c s)
  | issued (w : Work) (kind : StepKind) (st : StepRec) (run : Run) (h : w.s.engine.run = some run) :
      Beat w.s (absorb (issue kind st w.s).2 w).s
  | unwind (s : State) (run run' : Run) (u : PlanNo) (phase : Phase) (h : s.engine.run = some run) (hr : run.role = .normal)
      (hu : s.ready u = true) : Beat s (s.setRun (some ((unwindSpec run' u).context phase)))

/-- A sequence of beats. -/
abbrev Beats : State → State → Prop := Relation.ReflTransGen Beat

theorem Beat.beats {s t : State} (h : Beat s t) : Beats s t := .single h

theorem absorb_elsewhere (d : Delta) (w : Work) : d.s.SameElsewhere (absorb d w).s := by
  have h : d.s.SameElsewhere ((RailSet.rails d.changed).foldl (fun t r => addChanged r t) d.s) :=
    .foldl (fun s r => .setNotify s _) _ _
  unfold absorb
  dsimp only
  split
  · exact h.trans (.setNotify _ _)
  · exact h

/-- Within a run the requests that wait, the plan store and the pins stand. -/
theorem Beat.kept {s t : State} (h : Beat s t) : t.requests = s.requests ∧ t.store = s.store ∧ t.pins = s.pins := by
  cases h with
  | timers | edit | report | flag | changed | shed | unwind => exact ⟨rfl, rfl, rfl⟩
  | record _ kind role c =>
    have h := State.SameElsewhere.logFault (.engine kind role) (some c) s
    exact ⟨h.requests, h.store, h.pins⟩
  | issued w kind st run hr =>
    have h := (issue_elsewhere kind st w.s).trans (absorb_elsewhere _ w)
    exact ⟨h.requests, h.store, h.pins⟩

theorem Beats.requests {s t : State} (h : Beats s t) : t.requests = s.requests := by
  induction h with
  | refl => rfl
  | tail _ hb ih => exact hb.kept.1.trans ih

theorem beginStep_beat (i : Nat) (s : State) : Beat s (beginStep i s) := .edit s _ (fun _ => ⟨rfl, rfl⟩)
theorem startStepTimer_beat (ms : Nat) (s : State) : Beat s (startStepTimer ms s) := .timers s _ _ _
theorem setSelection_beat (x : RailSet) (s : State) : Beat s (setSelection x s) := .edit s _ (fun _ => ⟨rfl, rfl⟩)
theorem unselect_beat (s : State) : Beat s (mapRun (fun run => { run with selection := 0 }) s) := .edit s _ (fun _ => ⟨rfl, rfl⟩)
theorem hold_beat (s : State) : Beat s (mapRun (fun run => { run with phase := .held }) s) := .edit s _ (fun _ => ⟨rfl, rfl⟩)
theorem endWait_beats (s : State) : Beats s (endWait s) := .head (.timers s _ _ _) (unselect_beat _).beats
theorem enterHeld_beats (n : Nat) (s : State) : Beats s (enterHeld n s) :=
  .head (.timers s _ _ _) (.head (hold_beat _) (Beat.flag _ _).beats)

/-! ### Steps -/

theorem startAwait_beats (kind : StepKind) (st : StepRec) (w : Work) : Beats w.s (startAwait kind st w).1.s := by
  have h0 : Beats w.s (startStepTimer (10 * st.time.toNat) (setSelection (stepSelection w.s st) w.s)) :=
    .head (setSelection_beat _ _) (.single (startStepTimer_beat _ _))
  simp only [startAwait, Work.on]
  split
  · exact .refl
  · split
    · exact h0.trans (endWait_beats _)
    · exact h0.trans (endWait_beats _)
    · exact h0

theorem startStep_beats (st : StepRec) (w : Work) (run : Run) (h : w.s.engine.run = some run) : Beats w.s (startStep st w).1.s := by
  unfold startStep
  split
  · exact .refl
  · exact .single (.issued w .raise st run h)
  · exact .single (.issued w .lower st run h)
  · exact .single (.issued w .clear st run h)
  · exact startAwait_beats _ _ _
  · exact startAwait_beats _ _ _
  · exact .single (startStepTimer_beat _ _)
  · exact enterHeld_beats _ _

theorem afterStep_beats (st : StepRec) (x : Work × StepEnd) (next : Work → Work × ChainEnd) (hn : ∀ w, Beats w.s (next w).1.s) :
    Beats x.1.s (afterStep st x next).1.s := by
  obtain ⟨w, e⟩ := x
  cases e with
  | rest | failed => exact .refl
  | completed =>
    simp only [afterStep]
    split
    · exact enterHeld_beats _ _
    · exact hn w

/-- A chain of steps is made of beats. -/
theorem runSteps_beats (k i : Nat) (w : Work) : Beats w.s (runSteps k i w).1.s := by
  induction k generalizing i w with
  | zero => exact .refl
  | succ k ih =>
    have hb : Beat w.s (w.on (beginStep i)).s := beginStep_beat i w.s
    simp only [runSteps]
    split
    · exact hb.beats
    · rename_i run hr
      exact .head hb ((startStep_beats _ _ run hr).trans (afterStep_beats _ _ _ (fun w' => ih (i + 1) w')))

/-- From the moment its context stands, a run is started by beats. -/
theorem startRun_beats (x : RunSpec) (w : Work) : ∃ phase, Beats (w.s.setRun (some (x.context phase))) (startRun x w).1.s := by
  simp only [startRun, Work.on]
  split
  · exact ⟨.quiet, .single (.timers _ _ _ _)⟩
  · exact ⟨.waiting, .head (.timers _ none none none) (runSteps_beats _ 0 { s := _, reqs := w.reqs })⟩

/-! ### The end of a run -/

theorem outcomeFlag_beats (o : RunOutcome) (s : State) : Beats s (outcomeFlag o s) := by
  cases o with
  | reset => exact .refl
  | done => exact .single (.flag s .done)
  | failed | aborted | preempted | killed => exact .single (.flag s .fail)

theorem outcomeRecord_beats (run : Run) (o : RunOutcome) (s : State) : Beats s (outcomeRecord run o s) := by
  unfold outcomeRecord
  split
  · split
    · exact .single (.record s _ _ _)
    · exact .single (.record s _ _ _)
  · exact .single (.record s _ _ _)
  · exact .single (.record s _ _ _)
  · exact .refl

theorem endRun_beats (run : Run) (o : RunOutcome) (reason : Reason) (refusal : Option Result) (s : State) :
    Beats s (endRun run o reason refusal s) :=
  .head (.timers s none none none) (.head (unselect_beat _) (.head (.report _ _) ((outcomeFlag_beats o _).trans (outcomeRecord_beats run o _))))

theorem endChain_beats (run : Run) (e : ChainEnd) (s : State) : Beats s (endChain run e s) := by
  unfold endChain
  split
  · exact endRun_beats _ _ _ _ _
  · exact endRun_beats _ _ _ _ _

theorem outcomeFlag_elsewhere (o : RunOutcome) (s : State) : s.SameElsewhere (outcomeFlag o s) := by
  cases o with
  | reset => exact .refl s
  | done => exact .setNotify s _
  | failed | aborted | preempted | killed => exact .setNotify s _

theorem outcomeRecord_elsewhere (run : Run) (o : RunOutcome) (s : State) : s.SameElsewhere (outcomeRecord run o s) := by
  unfold outcomeRecord
  split
  · split
    · exact .logFault _ _ s
    · exact .logFault _ _ s
  · exact .logFault _ _ s
  · exact .logFault _ _ s
  · exact .refl s

/-- A run that has ended stands with nothing selected until the next one is chosen. -/
theorem endRun_run (run : Run) (o : RunOutcome) (reason : Reason) (refusal : Option Result) (s : State) :
    (endRun run o reason refusal s).engine.run = s.engine.run.map (fun x => { x with selection := 0 }) := by
  have h := (outcomeFlag_elsewhere o ((mapRun (fun x => { x with selection := 0 }) (s.setEngineTimers none none none)).setReport
    (reportOf run o reason refusal))).trans (outcomeRecord_elsewhere run o _)
  exact congrArg Engine.run h.engine

theorem failurePolicy_beats (run : Run) (w : Work) (x : Run) (h : w.s.engine.run = some x) (hx : x.role = run.role) :
    Beats w.s (failurePolicy run w).1.s := by
  unfold failurePolicy
  split
  · rename_i u hr _
    split
    · rename_i hu
      obtain ⟨phase, hb⟩ := startRun_beats (unwindSpec run u) w
      exact .head (.unwind w.s x run u phase h (hx.trans hr) hu) hb
    · exact .single (.record _ _ _ _)
  · exact .refl

theorem settleRun_beats (w : Work) (e : ChainEnd) : Beats w.s (settleRun w e).1.s := by
  unfold settleRun
  split
  · exact .refl
  · exact .refl
  · exact endChain_beats _ .done w.s
  · rename_i reason refusal run hrun
    have hended : (w.on (endChain run (.failed reason refusal))).s.engine.run = some { run with selection := 0 } := by
      show (endRun run .failed reason refusal w.s).engine.run = _
      rw [endRun_run, hrun]
      rfl
    have h1 : Beats w.s (failurePolicy run (w.on (endChain run (.failed reason refusal)))).1.s :=
      Relation.ReflTransGen.trans (b := (w.on (endChain run (.failed reason refusal))).s) (endChain_beats run (.failed reason refusal) w.s)
        (failurePolicy_beats run _ _ hended rfl)
    generalize failurePolicy run (w.on (endChain run (.failed reason refusal))) = x at h1 ⊢
    obtain ⟨w1, e1⟩ := x
    split
    · rename_i heq; cases heq; exact h1
    · rename_i heq; cases heq; exact h1
    · rename_i heq
      cases heq
      split
      · exact h1
      · exact h1.trans (endChain_beats _ _ _)

/-! ### Paces: from one run to the next -/

/-- One update of the engine between runs: a request that waits becomes the run, the engine goes IDLE when none waits, a fault-plan request becomes the
run or waits in the slot. -/
inductive Pace : State → State → Prop where
  | beat {s t : State} (h : Beat s t) : Pace s t
  | start (s : State) (x : RunSpec) (s1 : State) (phase : Phase) (h : takeNext s = some (x, s1)) : Pace s (s1.setRun (some (x.context phase)))
  | idle (s : State) (h : takeNext s = none) : Pace s (goIdle s)
  | urgent (s : State) (q : PlanRequest) (phase : Phase) (hk : s.pins.kill = false) (hr : s.ready q.plan = true)
      (hn : ∀ run, s.engine.run = some run → run.role ≠ .urgent) : Pace s (s.setRun (some ((urgentSpec q).context phase)))
  | slot (s : State) (q : PlanRequest) (run : Run) (hk : s.pins.kill = false) (hr : s.ready q.plan = true) (h : s.engine.run = some run)
      (hu : run.role = .urgent) : Pace s (s.setSlot (some q))

/-- A sequence of paces. -/
abbrev Paces : State → State → Prop := Relation.ReflTransGen Pace

theorem Pace.paces {s t : State} (h : Pace s t) : Paces s t := .single h

theorem Beats.paces {s t : State} (h : Beats s t) : Paces s t := by
  induction h with
  | refl => exact .refl
  | tail _ hb ih => exact ih.tail (.beat hb)

theorem Paces.keeps {s t : State} (h : Paces s t) (P : State → Prop) (hP : ∀ x y, Pace x y → P x → P y) (hs : P s) : P t := by
  induction h with
  | refl => exact hs
  | tail _ hp ih => exact hP _ _ hp ih

/-- A run that is taken no longer waits. -/
theorem takeNext_waitingRuns {s s1 : State} {x : RunSpec} (h : takeNext s = some (x, s1)) : s.waitingRuns = s1.waitingRuns + 1 := by
  unfold takeNext at h
  split at h
  · rename_i q hq
    cases h
    simp [State.waitingRuns, hq, Nat.add_comm]
  · rename_i hq
    split at h
    · rename_i e l hl
      cases h
      simp [State.waitingRuns, hq, hl]
    · cases h

theorem takeNext_eq_none {s : State} : takeNext s = none ↔ s.requests.slot = none ∧ s.requests.queue = [] := by
  unfold takeNext
  cases hs : s.requests.slot with
  | some q => simp
  | none => cases hq : s.requests.queue with
    | nil => simp
    | cons e l => simp

theorem takeNext_of_waitingRuns_zero {s : State} (h : s.waitingRuns = 0) : takeNext s = none := by
  cases hx : takeNext s with
  | none => rfl
  | some x => rw [takeNext_waitingRuns hx] at h; cases h

theorem waitingRuns_congr {s t : State} (h : t.requests = s.requests) : t.waitingRuns = s.waitingRuns := by
  unfold State.waitingRuns
  rw [h]

theorem chooseNext_paces (n : Nat) (w : Work) (hn : w.s.waitingRuns ≤ n) : Paces w.s (chooseNext n w).s := by
  induction n generalizing w with
  | zero => exact (Pace.idle w.s (takeNext_of_waitingRuns_zero (Nat.le_zero.mp hn))).paces
  | succ n ih =>
    simp only [chooseNext]
    split
    · exact (Pace.idle w.s (by assumption)).paces
    · rename_i x s1 hx
      obtain ⟨phase, hb⟩ := startRun_beats x { w with s := s1 }
      have h1 : Beats (s1.setRun (some (x.context phase)))
          (settleRun (startRun x { w with s := s1 }).1 (startRun x { w with s := s1 }).2).1.s := hb.trans (settleRun_beats _ _)
      have h2 := Relation.ReflTransGen.head (Pace.start w.s x s1 phase hx) h1.paces
      split
      · rename_i heq; rw [heq] at h2; exact h2
      · rename_i w2 heq
        rw [heq] at h1 h2
        have hw : w2.s.waitingRuns = s1.waitingRuns := waitingRuns_congr h1.requests
        have := takeNext_waitingRuns hx
        exact h2.trans (ih w2 (by omega))

/-- The engine after a chain of steps. -/
theorem carryOn_paces (w : Work) (e : ChainEnd) : Paces w.s (carryOn w e).s := by
  have h := settleRun_beats w e
  unfold carryOn
  split
  · rename_i heq; rw [heq] at h; exact h.paces
  · rename_i heq; rw [heq] at h; exact h.paces.trans (chooseNext_paces _ _ (le_refl _))

theorem nextSteps_paces (run : Run) (w : Work) : Paces w.s (nextSteps run w).s :=
  (runSteps_beats _ _ w).paces.trans (carryOn_paces _ _)

theorem completeStep_paces (run : Run) (w : Work) : Paces w.s (completeStep run w).s := by
  simp only [completeStep]
  split
  · exact (enterHeld_beats _ w.s).paces
  · exact nextSteps_paces _ _

theorem engineSees_paces (r : Rail) (w : Work) : Paces w.s (engineSees r w).s := by
  unfold engineSees
  split
  · exact .refl
  · split
    · exact .refl
    · exact (Pace.beat (.timers w.s _ _ _)).paces
    · split
      · split
        · split
          · exact .refl
          · exact (endWait_beats w.s).paces.trans (completeStep_paces _ (w.on endWait))
          · exact (endWait_beats w.s).paces.trans (carryOn_paces (w.on endWait) _)
        · exact .refl
      · exact .refl

/-- The hand-on of the changes of an event. -/
theorem handOn_paces (d : Delta) : Paces d.s (handOn d).s := by
  have h (l : List Rail) (w : Work) : Paces w.s (l.foldl (fun w r => engineSees r (w.on (addChanged r))) w).s := by
    induction l generalizing w with
    | nil => exact .refl
    | cons r l ih => exact .head (.beat (.changed w.s r)) ((engineSees_paces r (w.on (addChanged r))).trans (ih _))
  exact h _ { s := d.s, reqs := d.reqs }

theorem startUrgent_paces (q : PlanRequest) (w : Work) (hk : w.s.pins.kill = false) (hr : w.s.ready q.plan = true)
    (hn : ∀ run, w.s.engine.run = some run → run.role ≠ .urgent) : Paces w.s (startUrgent q w).s := by
  obtain ⟨phase, hb⟩ := startRun_beats (urgentSpec q) w
  exact .head (.urgent w.s q phase hk hr hn) (hb.paces.trans (carryOn_paces _ _))

theorem Beats.kept {s t : State} (h : Beats s t) : t.requests = s.requests ∧ t.store = s.store ∧ t.pins = s.pins := by
  induction h with
  | refl => exact ⟨rfl, rfl, rfl⟩
  | tail _ hb ih =>
    obtain ⟨h1, h2, h3⟩ := hb.kept
    exact ⟨h1.trans ih.1, h2.trans ih.2.1, h3.trans ih.2.2⟩

theorem ready_congr {s t : State} (h : t.store = s.store) (p : PlanNo) : t.ready p = s.ready p := by
  simp only [State.ready, State.plan, h]

theorem judgeRequest_paces (q : PlanRequest) (w : Work) : Paces w.s (judgeRequest q w).s := by
  unfold judgeRequest
  by_cases hk : w.s.pins.kill = true
  · rw [if_pos hk]
  · rw [if_neg hk]
    have hk : w.s.pins.kill = false := by simpa using hk
    by_cases hr : w.s.ready q.plan = true
    · rw [if_neg (by simp [hr])]
      split
      · rename_i hn
        exact startUrgent_paces q w hk hr (fun run h => by rw [hn] at h; cases h)
      · rename_i run hrun
        split
        · rename_i hu
          split
          · exact (Pace.slot w.s q run hk hr hrun hu).paces
          · split
            · exact .refl
            · exact (Pace.beat (.record w.s _ _ _)).paces
        · rename_i hu
          have hb := endRun_beats run .preempted .none none w.s
          obtain ⟨-, hstore, hpins⟩ := hb.kept
          refine hb.paces.trans (startUrgent_paces q (w.on (endRun run .preempted .none none)) ((congrArg Pins.kill hpins).trans hk)
            ((ready_congr hstore _).trans hr) (fun x hx => ?_))
          have hx : (endRun run .preempted .none none w.s).engine.run = some x := hx
          rw [endRun_run, hrun] at hx
          cases hx
          exact hu
    · rw [if_pos (by simpa using hr)]
      exact (Pace.beat (.record w.s _ _ _)).paces

theorem judgeRequests_paces (n : Nat) (w : Work) : Paces w.s (judgeRequests n w) := by
  induction n generalizing w with
  | zero => exact .refl
  | succ n ih =>
    simp only [judgeRequests]
    split
    · exact .refl
    · rename_i q l _
      exact (judgeRequest_paces q { w with reqs := l }).trans (ih (judgeRequest q { w with reqs := l }))

theorem finishWork_paces (w : Work) : Paces w.s (finishWork w) := judgeRequests_paces _ w

/-- What an event hands on, and its requests judged. -/
theorem finishWork_handOn_paces (d : Delta) : Paces d.s (finishWork (handOn d)) := (handOn_paces d).trans (finishWork_paces _)

theorem finish_paces (d : Delta) : Paces d.s (finish d) := by
  simp only [finish]
  split
  · exact (finishWork_handOn_paces d).tail (.beat (.shed _))
  · exact finishWork_handOn_paces d

/-! ### The commands and expiries of the run side -/

theorem release_paces (run : Run) (s : State) :
    Paces s (finishWork (nextSteps run { s := s.setEngineTimers s.engine.quietT s.engine.stepT none, reqs := [] })) :=
  .head (.beat (.timers s s.engine.quietT s.engine.stepT none))
    ((nextSteps_paces run { s := s.setEngineTimers s.engine.quietT s.engine.stepT none, reqs := [] }).trans (finishWork_paces _))

theorem hostAbort_paces (s : State) : Paces s (hostAbort s).2 := by
  unfold hostAbort
  split
  · rename_i run _
    exact (endRun_beats run .aborted .none none s).paces.trans
      ((chooseNext_paces _ { s := endRun run .aborted .none none s, reqs := [] } (le_refl _)).trans (finishWork_paces _))
  · exact .refl

theorem quietExpiry_paces (s : State) : Paces s (quietExpiry s) := by
  unfold quietExpiry
  split
  · exact .refl
  · rename_i run _
    split
    · exact .head (.beat (.timers s none s.engine.stepT s.engine.holdT))
        (((runSteps_beats _ 0 { s := s.setEngineTimers none s.engine.stepT s.engine.holdT, reqs := [] }).paces.trans
          (carryOn_paces _ _)).trans (finishWork_paces _))
    · exact .refl

theorem stepTimerExpiry_paces (s : State) : Paces s (stepTimerExpiry s) := by
  have ended : Paces s (endWait s) := (endWait_beats s).paces
  unfold stepTimerExpiry
  split
  · exact .refl
  · split
    · split
      · exact (ended.trans (carryOn_paces { s := endWait s, reqs := [] } _)).trans (finishWork_paces _)
      · exact (ended.trans (carryOn_paces { s := endWait s, reqs := [] } _)).trans (finishWork_paces _)
      · exact (ended.trans (completeStep_paces _ { s := endWait s, reqs := [] })).trans (finishWork_paces _)
      · exact .refl
    · exact .refl

theorem holdExpiry_paces (s : State) : Paces s (holdExpiry s) := by
  unfold holdExpiry
  split
  · exact .refl
  · split
    · exact (carryOn_paces { s := s, reqs := [] } _).trans (finishWork_paces _)
    · exact .refl

/-- An entry that joins the queue of an IDLE engine is taken in the same event, or one before it is. -/
theorem joinQueue_paces_of_idle (e : QueueEntry) (s : State) (hi : s.engine.run = none) :
    ∃ x s1 phase, takeNext (s.setQueue (s.requests.queue ++ [e])) = some (x, s1) ∧ Paces (s1.setRun (some (x.context phase))) (joinQueue e s) := by
  have hw : ∃ n, (s.setQueue (s.requests.queue ++ [e])).waitingRuns = n + 1 :=
    ⟨s.waitingRuns, by
      show _ + (s.requests.queue ++ [e]).length = s.waitingRuns + 1
      rw [List.length_append]
      rfl⟩
  obtain ⟨n, hn⟩ := hw
  cases hx : takeNext (s.setQueue (s.requests.queue ++ [e])) with
  | none =>
    obtain ⟨-, hq⟩ := takeNext_eq_none.mp hx
    simp at hq
  | some y =>
    obtain ⟨x, s1⟩ := y
    obtain ⟨phase, hb⟩ := startRun_beats x { s := s1, reqs := [] }
    have h1 : Beats (s1.setRun (some (x.context phase)))
        (settleRun (startRun x { s := s1, reqs := [] }).1 (startRun x { s := s1, reqs := [] }).2).1.s := hb.trans (settleRun_beats _ _)
    refine ⟨x, s1, phase, rfl, ?_⟩
    simp only [joinQueue, State.idle, hi, Option.isNone_none, if_true, hn, chooseNext, hx]
    refine Relation.ReflTransGen.trans ?_ (finishWork_paces _)
    split
    · rename_i heq; rw [heq] at h1; exact h1.paces
    · rename_i w2 heq
      rw [heq] at h1
      have hw : w2.s.waitingRuns = s1.waitingRuns := waitingRuns_congr h1.requests
      have := takeNext_waitingRuns hx
      exact h1.paces.trans (chooseNext_paces n w2 (by omega))

end Sys2Proof.Machine
end

section
/-! PROOFS. Rail events that declare nothing and cut nothing (`RailStep.Quiet`). A command or an edge that takes several rails through such events replaces
them all at once (`foldl_quiet`), and hands on the rails that moved. LOWER, CLEAR at voltage ZERO, an edge of KILL#, and a RAISE that meets no fault are quiet;
what the rail becomes is told in one update each. -/

namespace Sys2Proof.Machine

/-! ### Several rails replaced -/

theorem mapRails_rail (s : State) (l : List Rail) (f : Rail → RailChan) (r : Rail) :
    (s.mapRails l f).rail r = if r ∈ l then f r else s.rail r := by
  simp [State.mapRails, State.rail]

theorem State.SameElsewhere.withRails (s : State) (v : Vector RailChan 16) : s.SameElsewhere { s with rails := v } :=
  ⟨rfl, rfl, rfl, rfl, rfl, rfl, rfl, rfl⟩

theorem mapRails_elsewhere (s : State) (l : List Rail) (f : Rail → RailChan) : s.SameElsewhere (s.mapRails l f) := .withRails s _

/-- States that agree in each rail and in the rest are the same. -/
theorem rails_ext {s : State} {v w : Vector RailChan 16} (h : ∀ r : Rail, v[r.val] = w[r.val]) :
    ({ s with rails := v } : State) = { s with rails := w } := by
  rw [show v = w from Vector.ext (fun i hi => h ⟨i, hi⟩)]

theorem mapRails_eq {s : State} {l : List Rail} {f : Rail → RailChan} {w : Vector RailChan 16}
    (h : ∀ r : Rail, w[r.val] = if r ∈ l then f r else s.rail r) : s.mapRails l f = { s with rails := w } :=
  rails_ext (fun r => (mapRails_rail s l f r).trans (h r).symm)

theorem mapRails_nil (s : State) (f : Rail → RailChan) : s.mapRails [] f = s :=
  mapRails_eq (w := s.rails) (fun r => by simp [State.rail])

theorem mapRails_append_singleton (s : State) (l : List Rail) (a : Rail) (f : Rail → RailChan) :
    s.mapRails (l ++ [a]) f = (s.mapRails l f).setRail a (f a) := by
  refine mapRails_eq (w := ((s.mapRails l f).setRail a (f a)).rails) (fun r => ?_)
  show ((s.mapRails l f).setRail a (f a)).rail r = _
  rw [setRail_rail, mapRails_rail]
  by_cases h : a = r
  · subst h; simp
  · simp [h, Ne.symm h]

theorem mapRails_singleton (s : State) (a : Rail) (f : Rail → RailChan) : s.mapRails [a] f = s.setRail a (f a) := by
  rw [← List.nil_append [a], mapRails_append_singleton, mapRails_nil]

theorem mapRails_congr {s : State} {l l' : List Rail} {f g : Rail → RailChan} (hl : ∀ r, r ∈ l' ↔ r ∈ l) (hf : ∀ r ∈ l, g r = f r) :
    s.mapRails l' g = s.mapRails l f := by
  refine mapRails_eq (fun r => ?_)
  refine (mapRails_rail s _ _ r).trans ?_
  by_cases h : r ∈ l
  · rw [if_pos ((hl r).mpr h), if_pos h, hf r h]
  · rw [if_neg (fun h' => h ((hl r).mp h')), if_neg h]

/-- Rails that are replaced by themselves need not be named. -/
theorem mapRails_filter {s : State} {l : List Rail} {f : Rail → RailChan} (p : Rail → Bool) (h : ∀ r ∈ l, p r = false → f r = s.rail r) :
    s.mapRails (l.filter p) f = s.mapRails l f := by
  refine mapRails_eq (fun r => ?_)
  refine (mapRails_rail s _ _ r).trans ?_
  by_cases hr : r ∈ l
  · cases hp : p r with
    | true => simp [hr, hp]
    | false => simp [hr, hp, h r hr hp]
  · simp [hr]

theorem ofList_append_singleton (l : List Rail) (a : Rail) : RailSet.ofList (l ++ [a]) = RailSet.add (RailSet.ofList l) a := by
  simp [RailSet.ofList]

/-! ### Quiet events -/

/-- A rail event that declares nothing and cuts nothing. -/
structure RailStep.Quiet (e : RailStep) : Prop where
  silent : e.decls = []
  uncut : e.ownCut = false

/-- A quiet event replaces its rail and hands on whether it moved. -/
theorem commit_of_quiet {r : Rail} {e : RailStep} {d : Delta} (h : e.Quiet) :
    commit r e d = { s := d.s.setRail r e.rc
                     changed := if e.moved then RailSet.add d.changed r else d.changed
                     reqs := d.reqs
                     shed := d.shed || (e.entered && e.rc.cfg.shedMember) } := by
  obtain ⟨silent, uncut⟩ := h
  simp [commit, ownRequest, silent, uncut, logDecls]

/-- What quiet events of several rails hand on, each rail's event given by its own state at the start. -/
def quietDelta (s : State) (l : List Rail) (g : Rail → RailStep) : Delta where
  s := s.mapRails l (fun r => (g r).rc)
  changed := RailSet.ofList (l.filter (fun r => (g r).moved))
  reqs := []
  shed := l.any (fun r => (g r).entered && (g r).rc.cfg.shedMember)

/-- Quiet events of several rails, one after another: each rail is replaced as if alone. -/
theorem foldl_quiet (s : State) (act : Rail → Delta → Delta) (g : Rail → RailStep) (l : List Rail) (hn : l.Nodup)
    (hg : ∀ r ∈ l, ∀ d : Delta, s.SameElsewhere d.s → d.s.rail r = s.rail r → act r d = commit r (g r) d)
    (hq : ∀ r ∈ l, (g r).Quiet) : l.foldl (fun d r => act r d) (Delta.of s) = quietDelta s l g := by
  induction l using List.reverseRecOn with
  | nil => simp [quietDelta, mapRails_nil, Delta.of, RailSet.ofList]
  | append_singleton l a ih =>
    obtain ⟨hl, -, hd⟩ := List.nodup_append.mp hn
    have ha : a ∉ l := fun h => hd a h a (by simp) rfl
    have before := ih hl (fun r hr => hg r (by simp [hr])) (fun r hr => hq r (by simp [hr]))
    have other : (quietDelta s l g).s.rail a = s.rail a := by simp [quietDelta, mapRails_rail, ha]
    have elsewhere : s.SameElsewhere (quietDelta s l g).s := mapRails_elsewhere s l _
    rw [List.foldl_append, before, List.foldl_cons, List.foldl_nil, hg a (by simp) _ elsewhere other, commit_of_quiet (hq a (by simp))]
    simp only [quietDelta, mapRails_append_singleton, List.filter_append, List.any_append]
    congr 1
    · by_cases hm : (g a).moved = true
      · simp [hm, ofList_append_singleton]
      · simp [hm]
    · simp

/-! ### LOWER -/

theorem enterLowering_quiet (now : Uptime) (c : RailChan) : (enterLowering now (.of c)).Quiet := by
  rw [enterLowering_eq_lowered]
  exact ⟨rfl, rfl⟩

/-! ### CLEAR -/

theorem railClear_eq_cleared (now : Uptime) (c : RailChan) (hz : c.zone = .zero) : railClear now (.of c) = (RailStep.of c).move c.cleared := by
  have zone : (({ c with latched := 0, firstKind := none } : RailChan).wentOff).zone = .zero := hz
  simp only [railClear, enterOff, judgeOff, offChannel_eq_wentOff, RailStep.move, RailStep.withRc]
  exact if_pos zone

/-! ### KILL# -/

/-- What an assertion edge of KILL# makes of a rail (R72). -/
def RailChan.killed (now : Uptime) (c : RailChan) : RailChan :=
  if c.state.active = true then c.lowered now else if c.state = .faulted then { c with state := .locked, retryT := none } else c

theorem railKill_rc (now : Uptime) (c : RailChan) : (railKill now (.of c)).rc = c.killed now := by
  unfold railKill RailChan.killed
  cases hs : c.state <;> simp [RailStep.of, hs, RailState.active, enterLowering_eq_lowered, RailStep.move]

theorem railKill_moved (now : Uptime) (c : RailChan) :
    (railKill now (.of c)).moved = (c.state.active || c.state == .faulted) := by
  unfold railKill
  cases hs : c.state <;> simp [RailStep.of, hs, RailState.active, enterLowering_eq_lowered, RailStep.move]

theorem railKill_quiet (now : Uptime) (c : RailChan) : (railKill now (.of c)).Quiet := by
  unfold railKill
  cases hs : c.state
  case ramping | on => simpa only [RailStep.of, hs] using enterLowering_quiet now c
  all_goals exact ⟨by simp [RailStep.of, hs, RailStep.move], by simp [RailStep.of, hs, RailStep.move]⟩

/-- What an assertion edge of KILL# does to the rails. -/
theorem killRails_eq (s : State) : killRails s = quietDelta s allRails (fun r => railKill s.now (.of (s.rail r))) := by
  refine foldl_quiet s (fun r d => onRail r (railKill d.s.now) d) _ allRails (List.nodup_finRange 16) (fun r _ d he hr => ?_)
    (fun r _ => railKill_quiet _ _)
  have now : d.s.now = s.now := he.uptime
  simp only [onRail, hr, now]

theorem killRails_rail (s : State) (r : Rail) : (killRails s).s.rail r = (s.rail r).killed s.now := by
  rw [killRails_eq, quietDelta, mapRails_rail, if_pos (mem_allRails r), railKill_rc]

theorem killed_down (now : Uptime) (c : RailChan) : (c.killed now).state.active = false ∧ (c.killed now).state ≠ .faulted := by
  unfold RailChan.killed RailChan.lowered RailChan.wentOff
  split_ifs with ha hz hf
  · exact ⟨rfl, by simp⟩
  · exact ⟨rfl, by simp⟩
  · exact ⟨rfl, by simp⟩
  · exact ⟨by simpa using ha, hf⟩

/-! ### RAISE -/

theorem judgeRamping_of_zero (now : Uptime) (e : RailStep) (h : e.rc.zone = .zero) :
    judgeRamping now e = e.withRc { e.rc with settleT := none } := by
  simp [judgeRamping, h]

/-- An entry into RAMPING with the voltage at ZERO and no over-current flag that is declared at once: the one update of R17 and R40, and then the
bound input judged. -/
theorem enterRamping_before_input (now : Uptime) (xf : Bool) (c c0 : RailChan) (hz : c.zone = .zero)
    (hf : ¬ (c.cfg.detect.oc = true ∧ c.overCurrent = true ∧ c.cfg.filterTime = 0)) :
    enterRamping now xf ((RailStep.of c0).withRc c)
      = judgeInputAtEntry now xf ((RailStep.of c0).move { c.raised now with retries := c.retries }) := by
  have zone : (((RailStep.of c0).withRc c).move (rampingChannel now c)).rc.zone = .zero := hz
  show judgeInputAtEntry now xf (judgeFlagAtEntry now (judgeRamping now (((RailStep.of c0).withRc c).move (rampingChannel now c)))) = _
  rw [judgeRamping_of_zero now _ zone]
  refine congrArg (judgeInputAtEntry now xf) ?_
  by_cases hoc : c.cfg.detect.oc = true
  · by_cases ho : c.overCurrent = true
    · have ht : c.cfg.filterTime ≠ 0 := fun ht => hf ⟨hoc, ho, ht⟩
      simp [judgeFlagAtEntry, startOc, RailStep.withRc, RailStep.move, RailStep.of, rampingChannel, armAll, cancelAllTimers,
        cancelActiveTimers, RailState.active, RailChan.raised, hoc, ho, ht]
    · simp [judgeFlagAtEntry, RailStep.withRc, RailStep.move, RailStep.of, rampingChannel, armAll, cancelAllTimers,
        cancelActiveTimers, RailChan.raised, ho]
  · simp [judgeFlagAtEntry, startOc, RailStep.withRc, RailStep.move, RailStep.of, rampingChannel, armAll, cancelAllTimers,
      cancelActiveTimers, RailChan.raised, hoc]

/-- An entry into RAMPING with the voltage at ZERO and no fault standing (R17, R40). -/
theorem enterRamping_of_zero (now : Uptime) (xf : Bool) (c c0 : RailChan) (hz : c.zone = .zero)
    (hf : ¬ (c.cfg.detect.oc = true ∧ c.overCurrent = true ∧ c.cfg.filterTime = 0)) (hx : ¬ (c.cfg.detect.ext = true ∧ xf = true)) :
    enterRamping now xf ((RailStep.of c0).withRc c) = (RailStep.of c0).move { c.raised now with retries := c.retries } := by
  rw [enterRamping_before_input now xf c c0 hz hf]
  unfold judgeInputAtEntry declareExt
  split_ifs with ha he
  · exact absurd ⟨he.1, ha.2⟩ hx
  · rfl
  · rfl

/-- A RAISE with the voltage at ZERO and no fault standing (R14). -/
theorem railRaise_eq_raised (now : Uptime) (xf : Bool) (c : RailChan) (hz : c.zone = .zero)
    (hf : ¬ (c.cfg.detect.oc = true ∧ c.overCurrent = true ∧ c.cfg.filterTime = 0)) (hx : ¬ (c.cfg.detect.ext = true ∧ xf = true)) :
    railRaise now xf (.of c) = (RailStep.of c).move (c.raised now) :=
  enterRamping_of_zero now xf { c with retries := 0 } c hz hf hx

theorem nothingStands_iff {s : State} {r : Rail} : s.nothingStands r = true ↔
    ¬ ((s.rail r).cfg.detect.oc = true ∧ (s.rail r).overCurrent = true ∧ (s.rail r).cfg.filterTime = 0)
      ∧ ¬ ((s.rail r).cfg.detect.ext = true ∧ s.boundAsserted r = true) := by
  simp only [State.nothingStands, Bool.and_eq_true, Bool.not_eq_true', Bool.and_eq_false_iff, beq_eq_false_iff_ne, ne_eq, not_and_or,
    Bool.not_eq_true, or_assoc]

end Sys2Proof.Machine
end

section
/-! PROOFS. The laws of queue, slot and run (R82, R126, R145), of the KILL# input (R74) and of the SHED latch (R170). Each beat and each pace of the engine
keeps them, and each deed of a command. KILL# leaves the part down, where no pace is left to the engine; an entry into FAULTED or LOCKED is told to the SHED
latch in its event. -/

namespace Sys2Proof.Machine

/-! ### The requests that wait -/

/-- The urgent request is taken before the queue (R118). -/
theorem takeNext_cases {s s1 : State} {x : RunSpec} (h : takeNext s = some (x, s1)) :
    (∃ q, s.requests.slot = some q ∧ x = urgentSpec q ∧ s1 = s.setSlot none)
      ∨ s.requests.slot = none ∧ ∃ e l, s.requests.queue = e :: l ∧ s1 = s.setQueue l
        ∧ x = { plan := e.plan, role := .normal, origin := e.origin, tag := e.tag, failedPlan := none, failingStep := none } := by
  unfold takeNext at h
  split at h
  · rename_i q hq
    cases h
    exact .inl ⟨q, hq, rfl, rfl⟩
  · rename_i hq
    split at h
    · rename_i e l hl
      cases h
      exact .inr ⟨hq, e, l, hl, rfl, rfl⟩
    · cases h

/-! ### Queue, slot and run -/

/-- What the laws of the run side see of a run. -/
def Run.seat (run : Run) : PlanNo × Role := (run.plan, run.role)

theorem runLaw_congr {s t : State} (hq : t.requests.queue = s.requests.queue) (hs : t.requests.slot = s.requests.slot)
    (hr : t.engine.run.map Run.seat = s.engine.run.map Run.seat) (hp : ∀ p, s.usedAt p 1 ∨ s.usedAt p 2 ∨ s.usedAt p 3 → t.ready p = s.ready p)
    (h : s.runLaw) : t.runLaw := by
  obtain ⟨hlen, hone, hqueue, hslot, hrun, hurgent, hidle⟩ := h
  have seat {run : Run} (ht : t.engine.run = some run) : ∃ run', s.engine.run = some run' ∧ run'.seat = run.seat := by
    rw [ht] at hr
    exact Option.map_eq_some_iff.mp hr.symm
  have seat' {run : Run} (ht : s.engine.run = some run) : ∃ run', t.engine.run = some run' ∧ run'.seat = run.seat := by
    rw [ht] at hr
    exact Option.map_eq_some_iff.mp hr
  refine ⟨hq ▸ hlen, hq ▸ hone, fun e he => ?_, fun q h => ?_, fun run h => ?_, fun q h => ?_, fun h => ?_⟩
  · rw [hq] at he
    rw [hp _ (.inr (.inl (List.any_eq_true.mpr ⟨e, he, by simp⟩)))]
    exact hqueue e he
  · rw [hs] at h
    rw [hp _ (.inr (.inr (by simp [State.usedAt, h])))]
    exact hslot q h
  · obtain ⟨run', hrun', hseat⟩ := seat h
    have hplan : run'.plan = run.plan := congrArg Prod.fst hseat
    rw [← hplan, hp _ (.inl (by simp [State.usedAt, hrun']))]
    exact hrun run' hrun'
  · rw [hs] at h
    obtain ⟨run, hrun', hrole⟩ := hurgent q h
    obtain ⟨run', ht, hseat⟩ := seat' hrun'
    have hsame : run'.role = run.role := congrArg Prod.snd hseat
    exact ⟨run', ht, hsame.trans hrole⟩
  · rw [hq]
    refine hidle ?_
    rw [h] at hr
    exact Option.map_eq_none_iff.mp hr.symm

/-- What does not touch the run side keeps its laws. -/
theorem State.SameElsewhere.runLaw {s t : State} (h : s.SameElsewhere t) (hs : s.runLaw) : t.runLaw :=
  runLaw_congr (by rw [h.requests]) (by rw [h.requests]) (by rw [h.engine]) (fun p _ => ready_congr h.store p) hs

theorem runLaw_of_cleared {s : State} (hr : s.engine.run = none) (hq : s.requests.queue = []) (hs : s.requests.slot = none) : s.runLaw := by
  simp [State.runLaw, hr, hq, hs]

/-- A run takes the seat of the one before it, or of an IDLE engine: its plan is READY, and the slot is empty or the run is URGENT. -/
theorem setRun_runLaw {s : State} {run : Run} (h : s.runLaw) (hp : s.ready run.plan = true)
    (hu : s.requests.slot = none ∨ run.role = .urgent) : (s.setRun (some run)).runLaw := by
  obtain ⟨hlen, hone, hqueue, hslot, -, -, -⟩ := h
  refine ⟨hlen, hone, hqueue, hslot, fun x hx => ?_, fun q hq => ?_, fun h => by cases h⟩
  · cases hx
    exact hp
  · exact ⟨run, rfl, hu.resolve_left (fun hn => by simp [hn] at hq)⟩

theorem Beat.runLaw {s t : State} (h : Beat s t) (hs : s.runLaw) : t.runLaw := by
  cases h with
  | timers | report | flag | changed | shed => exact runLaw_congr (s := s) rfl rfl rfl (fun _ _ => rfl) hs
  | edit _ f hf =>
    refine runLaw_congr (s := s) rfl rfl ?_ (fun _ _ => rfl) hs
    show (s.engine.run.map f).map Run.seat = _
    rw [Option.map_map]
    exact congrArg (fun g => s.engine.run.map g) (funext fun run => Prod.ext (hf run).1 (hf run).2)
  | record => exact (State.SameElsewhere.logFault _ _ s).runLaw hs
  | issued w kind st => exact ((issue_elsewhere kind st _).trans (absorb_elsewhere _ w)).runLaw hs
  | unwind _ run run' u phase h hr hu =>
    obtain ⟨-, -, -, -, -, hurgent, -⟩ := id hs
    refine setRun_runLaw hs hu (.inl (Option.eq_none_iff_forall_ne_some.mpr fun q hq => ?_))
    obtain ⟨x, hx, hrole⟩ := hurgent q hq
    rw [h] at hx
    cases hx
    rw [hr] at hrole
    cases hrole

theorem Pace.runLaw {s t : State} (h : Pace s t) (hs : s.runLaw) : t.runLaw := by
  obtain ⟨hlen, hone, hqueue, hslot, hrun, hurgent, hidle⟩ := id hs
  cases h with
  | beat h => exact h.runLaw hs
  | start x s1 phase h =>
    rcases takeNext_cases h with ⟨q, hq, rfl, rfl⟩ | ⟨hq, e, l, hl, rfl, rfl⟩
    · exact setRun_runLaw (s := s.setSlot none) ⟨hlen, hone, hqueue, (fun _ h => by cases h), hrun, (fun _ h => by cases h), hidle⟩
        (hslot q hq) (.inl rfl)
    · rw [hl] at hlen hone hqueue
      refine ⟨Nat.le_of_succ_le hlen, (List.nodup_cons.mp hone).2, fun e' he => hqueue e' (.tail _ he), fun q h => ?_,
        fun run h => ?_, fun q h => ?_, fun h => ?_⟩
      · simp [hq] at h
      · cases h; exact hqueue e (.head _)
      · simp [hq] at h
      · cases h
  | idle h =>
    obtain ⟨hn, hq⟩ := takeNext_eq_none.mp h
    exact runLaw_of_cleared rfl hq hn
  | urgent q phase hk hr hn => exact setRun_runLaw hs hr (.inr rfl)
  | slot q run hk hr h hu =>
    refine ⟨hlen, hone, hqueue, fun x hx => by cases hx; exact hr, hrun, fun _ _ => ⟨run, h, hu⟩, hidle⟩

theorem Paces.runLaw {s t : State} (h : Paces s t) (hs : s.runLaw) : t.runLaw := h.keeps State.runLaw (fun _ _ hp => hp.runLaw) hs

/-- An entry of a READY plan that is not queued joins a queue with room. -/
theorem queued_runLaw {s : State} {e : QueueEntry} (hr : s.ready e.plan = true) (hq : s.queuePosition e.plan = none)
    (hl : s.requests.queue.length < 4) (h : s.runLaw) :
    (s.requests.queue ++ [e]).length ≤ 4 ∧ ((s.requests.queue ++ [e]).map QueueEntry.plan).Nodup
      ∧ ∀ x ∈ s.requests.queue ++ [e], s.ready x.plan = true := by
  obtain ⟨-, hone, hqueue, -⟩ := h
  refine ⟨by simp; omega, ?_, fun x hx => ?_⟩
  · rw [List.map_append, List.nodup_append]
    refine ⟨hone, by simp, fun a ha b hb => ?_⟩
    obtain ⟨y, hy, rfl⟩ := List.mem_map.mp ha
    simp only [List.map_cons, List.map_nil, List.mem_singleton] at hb
    subst hb
    simp only [State.queuePosition, List.findIdx?_eq_none_iff, beq_eq_false_iff_ne] at hq
    exact hq y hy
  · rcases List.mem_append.mp hx with hx | hx
    · exact hqueue x hx
    · rw [List.mem_singleton.mp hx]; exact hr

theorem joinQueue_runLaw {s : State} {e : QueueEntry} (hr : s.ready e.plan = true) (hq : s.queuePosition e.plan = none)
    (hl : s.requests.queue.length < 4) (h : s.runLaw) : (joinQueue e s).runLaw := by
  obtain ⟨hlen, hone, hqueue⟩ := queued_runLaw hr hq hl h
  obtain ⟨-, -, -, hslot, hrun, hurgent, hidle⟩ := h
  cases hi : s.engine.run with
  | some run =>
    rw [joinQueue_of_running e (by simp [hi])]
    exact ⟨hlen, hone, hqueue, hslot, hrun, hurgent, fun hn => by rw [show s.engine.run = none from hn] at hi; cases hi⟩
  | none =>
    have noSlot : s.requests.slot = none := Option.eq_none_iff_forall_ne_some.mpr fun q hs => by
      obtain ⟨run, hx, -⟩ := hurgent q hs
      rw [hi] at hx
      cases hx
    obtain ⟨x, s1, phase, hx, hp⟩ := joinQueue_paces_of_idle e s hi
    refine hp.runLaw ?_
    rcases takeNext_cases hx with ⟨q, hs, -⟩ | ⟨-, e', l, hl, rfl, rfl⟩
    · exact absurd hs (by simp [noSlot])
    · have one : e = e' ∧ l = [] := by simpa [hidle hi] using hl
      obtain ⟨rfl, rfl⟩ := one
      refine ⟨by simp, by simp, fun x hx => ?_, fun q h => ?_, fun run h => ?_, fun q h => ?_, fun h => ?_⟩
      · simp at hx
      · simp [noSlot] at h
      · cases h; exact hr
      · simp [noSlot] at h
      · cases h

theorem planInUse_none {s : State} {p : PlanNo} (h : s.planInUse p = none) :
    s.usedAt p 1 = false ∧ s.usedAt p 2 = false ∧ s.usedAt p 3 = false := by
  rw [planInUse_eq_find, List.find?_eq_none] at h
  have at_ (n : Nat) (hn : n ∈ [1, 2, 3]) : s.usedAt p n = false := by simpa using h n hn
  exact ⟨at_ 1 (by simp), at_ 2 (by simp), at_ 3 (by simp)⟩

/-- A change of one plan's state is nothing to the run side when the plan is not in use, or is READY after it. -/
theorem setPlan_runLaw {s t : State} {p : PlanNo} (hp : ∀ q, q ≠ p → t.ready q = s.ready q) (hr : t.requests = s.requests) (he : t.engine = s.engine)
    (hu : s.planInUse p = none) (h : s.runLaw) : t.runLaw := by
  obtain ⟨h1, h2, h3⟩ := planInUse_none hu
  refine runLaw_congr (by rw [hr]) (by rw [hr]) (by rw [he]) (fun q hq => hp q ?_) h
  rintro rfl
  simp [h1, h2, h3] at hq

theorem emptyPlan_ready_of_ne {s : State} {p q : PlanNo} (h : q ≠ p) : (emptyPlan p s).ready q = s.ready q := by
  have plan : (emptyPlan p s).plan q = s.plan q := by
    by_cases hd : s.store.defining = some p
    · rw [emptyPlan_of_defining hd]; exact (setPlan_plan s p q _).trans (if_neg (Ne.symm h))
    · rw [emptyPlan_of_not_defining hd]; exact (setPlan_plan s p q _).trans (if_neg (Ne.symm h))
  simp [State.ready, plan]

theorem emptyPlan_elsewhere (p : PlanNo) (s : State) :
    (emptyPlan p s).rails = s.rails ∧ (emptyPlan p s).engine = s.engine ∧ (emptyPlan p s).requests = s.requests
      ∧ (emptyPlan p s).pins = s.pins ∧ (emptyPlan p s).notify = s.notify := by
  by_cases hd : s.store.defining = some p
  · rw [emptyPlan_of_defining hd]; exact ⟨rfl, rfl, rfl, rfl, rfl⟩
  · rw [emptyPlan_of_not_defining hd]; exact ⟨rfl, rfl, rfl, rfl, rfl⟩

theorem storeStep_elsewhere (v : Byte) (s : State) :
    (storeStep v s).rails = s.rails ∧ (storeStep v s).engine = s.engine ∧ (storeStep v s).requests = s.requests
      ∧ (storeStep v s).pins = s.pins ∧ (storeStep v s).notify = s.notify := by
  unfold storeStep
  split
  · exact ⟨rfl, rfl, rfl, rfl, rfl⟩
  · split <;> exact ⟨rfl, rfl, rfl, rfl, rfl⟩

theorem storeStep_ready (v : Byte) (s : State) (q : PlanNo) : (storeStep v s).ready q = s.ready q := by
  unfold storeStep
  split
  · rfl
  · rename_i p hd
    split
    · show (((s.setPlan p _).plan q).state == _) = _
      rw [setPlan_plan]
      split
      · rename_i e; subst e; rfl
      · rfl
    · rfl

theorem applyWrite_elsewhere (s : State) (r : Rail) :
    ∃ y, Paces y (finish (writeDelta s r)) ∧ (nextFree s).SameElsewhere y :=
  ⟨_, finish_paces _, onRail_elsewhere r _ (Delta.of (nextFree s))⟩

theorem recomputeFlt_elsewhere (s : State) : s.SameElsewhere (recomputeFlt s) := ⟨rfl, rfl, rfl, rfl, rfl, rfl, rfl, rfl⟩

theorem emptyDefining_elsewhere (s : State) :
    (emptyDefining s).rails = s.rails ∧ (emptyDefining s).engine = s.engine ∧ (emptyDefining s).requests = s.requests
      ∧ (emptyDefining s).pins = s.pins ∧ (emptyDefining s).notify = s.notify := by
  unfold emptyDefining
  split
  · exact emptyPlan_elsewhere _ s
  · exact ⟨rfl, rfl, rfl, rfl, rfl⟩

/-- ENGINE_RESET leaves the rails, the pins and the SHED latch, and nothing of the run side (R122). -/
theorem hostEngineReset_leaves (s : State) :
    let t := (hostEngineReset s).2
    t.rails = s.rails ∧ t.engine.run = none ∧ t.requests.queue = [] ∧ t.requests.slot = none ∧ t.pins = s.pins
      ∧ t.notify.shed = s.notify.shed := by
  obtain ⟨hrails, hengine, hrequests, hpins, hnotify⟩ := emptyDefining_elsewhere s.runSideCleared
  have shed : (setFlag .restart (emptyDefining s.runSideCleared)).notify.shed = s.notify.shed :=
    (congrArg Notify.shed hnotify :)
  rw [hostEngineReset_eq]
  exact ⟨hrails, congrArg Engine.run hengine, congrArg RequestUnit.queue hrequests, congrArg RequestUnit.slot hrequests, hpins, shed⟩

/-! ### An assertion edge of KILL# -/

theorem stopRun_run (o : RunOutcome) (s : State) : (stopRun o s).engine.run = none := by
  unfold stopRun
  split
  · rfl
  · assumption

theorem addChanged_list_elsewhere (l : List Rail) (s : State) : s.SameElsewhere (l.foldl (fun t r => addChanged r t) s) :=
  .foldl (fun s _ => .setNotify s _) l s

theorem addChanged_list_rail (l : List Rail) (s : State) (r : Rail) : (l.foldl (fun t r => addChanged r t) s).rail r = s.rail r := by
  induction l generalizing s with
  | nil => rfl
  | cons a l ih => exact ih (addChanged a s)

theorem stopRun_rail (o : RunOutcome) (s : State) (r : Rail) : (stopRun o s).rail r = s.rail r := by
  unfold stopRun
  split
  · rename_i run _
    show (endRun run o .none none s).rail r = s.rail r
    cases o with
    | failed =>
      cases run with
      | mk phase plan role => cases role <;> exact logEngine_rail _ _ _ _ _
    | preempted | killed => exact logEngine_rail _ _ _ _ _
    | done | aborted | reset => rfl
  · rfl

theorem killEffect_rail (s : State) (r : Rail) : (killEffect s).rail r = (s.rail r).killed s.now := by
  rw [← killRails_rail, ← stopRun_rail .killed (killRails s).s r]
  exact addChanged_list_rail _ _ r

/-- KILL# takes everything down (R72 to R74, R121, R139). -/
theorem killEffect_down (s : State) : (killEffect s).down := by
  have h := addChanged_list_elsewhere (RailSet.rails (killRails s).changed)
    (emptyRequests ((stopRun .killed (killRails s).s).setEngineTimers none none none))
  have run : (killEffect s).engine.run = none := (congrArg Engine.run h.engine).trans (stopRun_run .killed _)
  have queue : (killEffect s).requests.queue = [] := congrArg RequestUnit.queue h.requests
  have slot : (killEffect s).requests.slot = none := congrArg RequestUnit.slot h.requests
  exact ⟨fun r => by rw [killEffect_rail]; exact killed_down _ _, run, queue, slot⟩

theorem endOfReset_cases (s : State) :
    s.pins.kill = true ∧ endOfReset s = killEffect (setFlag .restart (resetBlocks s))
      ∨ s.pins.kill = false ∧ endOfReset s = setFlag .restart (resetBlocks s) := by
  cases hk : s.pins.kill with
  | true => exact .inl ⟨rfl, if_pos hk⟩
  | false => exact .inr ⟨rfl, if_neg (by simp [resetBlocks, hk])⟩

theorem down_runLaw {s : State} (h : s.down) : s.runLaw := runLaw_of_cleared h.2.1 h.2.2.1 h.2.2.2

/-! ### The law of queue, slot and run over every step -/

theorem Deed.runLaw {s t : State} (h : Deed s t) (hs : s.runLaw) : t.runLaw := by
  cases h with
  | rail | judged | acked | popped | config | pins | free | bus => exact runLaw_congr (s := s) rfl rfl rfl (fun _ _ => rfl) hs
  | event d hd => exact (finish_paces d).runLaw (hd.elsewhere.runLaw hs)
  | write r =>
    obtain ⟨y, hp, he⟩ := applyWrite_elsewhere s r
    exact (recomputeFlt_elsewhere _).runLaw (hp.runLaw (he.runLaw (runLaw_congr (s := s) rfl rfl rfl (fun _ _ => rfl) hs)))
  | record => exact (State.SameElsewhere.logFault _ _ s).runLaw hs
  | define p x hu =>
    refine setPlan_runLaw (s := s) (p := p) (fun q hq => ?_) rfl rfl hu hs
    show (((s.setPlan p x).plan q).state == _) = _
    rw [setPlan_plan, if_neg (Ne.symm hq)]
    rfl
  | commit p hd =>
    obtain ⟨hlen, hone, hqueue, hslot, hrun, hurgent, hidle⟩ := hs
    have ready {q : PlanNo} (hq : s.ready q = true) :
        (((s.setPlan p { s.plan p with state := .ready }).setDefining none).setWriteCount 0).ready q = true := by
      show (((s.setPlan p _).plan q).state == _) = _
      rw [setPlan_plan]
      split
      · rfl
      · exact hq
    exact ⟨hlen, hone, fun e he => ready (hqueue e he), fun q h => ready (hslot q h), fun run h => ready (hrun run h), hurgent, hidle⟩
  | erase p hu =>
    obtain ⟨-, hengine, hrequests, -⟩ := emptyPlan_elsewhere p s
    exact setPlan_runLaw (fun q hq => emptyPlan_ready_of_ne hq) hrequests hengine hu hs
  | storeStep v =>
    obtain ⟨-, hengine, hrequests, -⟩ := storeStep_elsewhere v s
    exact runLaw_congr (by rw [hrequests]) (by rw [hrequests]) (by rw [hengine]) (fun q _ => storeStep_ready v s q) hs
  | join e hk hr hq hl => exact joinQueue_runLaw hr hq hl hs
  | cancel i =>
    obtain ⟨hlen, hone, hqueue, hslot, hrun, hurgent, hidle⟩ := hs
    refine ⟨(List.length_eraseIdx_le _ _).trans hlen, hone.sublist ((List.eraseIdx_sublist _ _).map _),
      fun e he => hqueue e (List.mem_of_mem_eraseIdx he), hslot, hrun, hurgent, fun hn => ?_⟩
    show s.requests.queue.eraseIdx i = []
    rw [hidle hn]
    rfl
  | release run => exact (release_paces run s).runLaw hs
  | abort => exact (hostAbort_paces s).runLaw hs
  | quietExpiry => exact (quietExpiry_paces s).runLaw hs
  | stepTimerExpiry => exact (stepTimerExpiry_paces s).runLaw hs
  | holdExpiry => exact (holdExpiry_paces s).runLaw hs
  | engineReset =>
    obtain ⟨-, hrun, hqueue, hslot, -⟩ := hostEngineReset_leaves s
    exact runLaw_of_cleared hrun hqueue hslot
  | killEdge => exact down_runLaw (killEffect_down _)

theorem endOfReset_runLaw (s : State) : (endOfReset s).runLaw := by
  rcases endOfReset_cases s with ⟨-, h⟩ | ⟨-, h⟩
  · rw [h]; exact down_runLaw (killEffect_down _)
  · rw [h]; exact runLaw_of_cleared rfl rfl rfl

theorem resetBlocks_runLaw (s : State) : (resetBlocks s).runLaw := runLaw_of_cleared rfl rfl rfl

/-- Settles O15: each pace of the engine and each deed of the run request unit keeps the laws of queue, slot and run. -/
theorem stepKeepsRunLaw : Obligations.StepKeepsRunLaw := by
  intro s t h hs
  refine step_keeps (P := State.runLaw) (fun s l h => runLaw_congr (s := s) rfl rfl rfl (fun _ _ => rfl) h) (fun _ _ hd => hd.runLaw)
    (fun s h => ?_) (fun s _ => ?_) (fun s h => ?_) (fun s h => ?_) h hs
  · unfold uptimeTick
    split
    · exact h
    · exact runLaw_congr (s := s) rfl rfl rfl (fun _ _ => rfl) h
  · unfold powerOn
    split
    · exact resetBlocks_runLaw s
    · exact endOfReset_runLaw s
  · unfold resetAssert
    split
    · exact h
    · exact resetBlocks_runLaw _
  · unfold resetDeassert
    split
    · exact endOfReset_runLaw _
    · exact h

end Sys2Proof.Machine
end

section
/-! PROOFS. The laws of the KILL# input (R74), of the SHED latch (R170) and of a held reset (R2, R172). While the part is down no pace is left to the engine,
and a rail event leaves it down. An entry into FAULTED or LOCKED is told to the SHED latch in its event. While RESET# is asserted no timer runs, so an
expiry finds nothing to do, and the other commands move the inputs alone. -/

namespace Sys2Proof.Machine

/-! ### KILL# -/

theorem Beat.rail_of_idle {s t : State} (h : Beat s t) (hi : s.engine.run = none) : t.rails = s.rails ∧ t.engine.run = none := by
  cases h with
  | timers | report | flag | changed | shed => exact ⟨rfl, hi⟩
  | edit _ f hf => exact ⟨rfl, congrArg (Option.map f) hi⟩
  | record kind role c => exact ⟨logFault_rails _ _ s, (congrArg Engine.run (logFault_engine _ _ s)).trans hi⟩
  | issued w kind st run hr => rw [hr] at hi; cases hi
  | unwind _ run run' u phase hr => rw [hr] at hi; cases hi

/-- A part that is down stays down while KILL# is asserted: no run, none that waits, and none is started. -/
theorem Pace.down {s t : State} (h : Pace s t) (hk : s.pins.kill = true) (hs : s.down) : t.down ∧ t.pins.kill = true := by
  obtain ⟨hrail, hrun, hqueue, hslot⟩ := hs
  cases h with
  | beat h =>
    obtain ⟨hrequests, -, hpins⟩ := h.kept
    obtain ⟨hrails, hrun'⟩ := h.rail_of_idle hrun
    exact ⟨⟨fun r => by rw [rail_congr hrails]; exact hrail r, hrun', by rw [hrequests]; exact hqueue, by rw [hrequests]; exact hslot⟩,
      by rw [hpins]; exact hk⟩
  | start x s1 phase h => rw [takeNext_eq_none.mpr ⟨hslot, hqueue⟩] at h; cases h
  | idle => exact ⟨⟨hrail, rfl, hqueue, hslot⟩, hk⟩
  | urgent q phase hn => rw [hk] at hn; cases hn
  | slot q run hn => rw [hk] at hn; cases hn

theorem Paces.down {s t : State} (h : Paces s t) (hk : s.pins.kill = true) (hs : s.down) : t.down :=
  (h.keeps (fun x => x.down ∧ x.pins.kill = true) (fun _ _ hp hx => hp.down hx.2 hx.1) ⟨hs, hk⟩).1

/-- A rail event that leaves its rail down leaves the part down. -/
theorem commit_down {r : Rail} {e : RailStep} {d : Delta} (he : e.Down) (hs : d.s.down) : (commit r e d).s.down := by
  obtain ⟨hrail, hrun, hqueue, hslot⟩ := hs
  have h := commit_elsewhere r e d
  refine ⟨fun x => ?_, by rw [h.engine]; exact hrun, by rw [h.requests]; exact hqueue, by rw [h.requests]; exact hslot⟩
  rw [commit_rail_of_not_cut r e d he.uncut]
  split
  · exact ⟨he.inactive, he.unfaulted⟩
  · exact hrail x

theorem Stirs.down {d d' : Delta} (h : Stirs d d') (hk : d.s.pins.kill = true) (hs : d.s.down) : d'.s.down := by
  induction h with
  | refl => exact hs
  | tail hb hstir ih =>
    rename_i d1 d2
    have hk1 : d1.s.pins.kill = true := (congrArg Pins.kill (Stirs.elsewhere hb).pins).trans hk
    cases hstir with
    | rail r f hl => exact commit_down (hl.down hk1 (ih.1 r).1 (ih.1 r).2) ih

/-- The transition of WRITE_RAIL keeps its rail out of FAULTED and LOCKED. -/
theorem railWrite_tells (now : Uptime) (cfg : RailCfg) (z : Zone) (oc : Bool) (c : RailChan) :
    (RailStep.of c).Tells (railWrite now cfg z oc (.of c)) := by
  have state : (writtenChannel cfg c).state = .off ∨ (writtenChannel cfg c).state = .unused := by
    simp only [writtenChannel]
    split
    · exact .inl rfl
    · exact .inr rfl
  have written : (RailStep.of c).Tells ((RailStep.of c).withRc (writtenChannel cfg c)) :=
    .of_inactive (by rcases state with h | h <;> simp [RailStep.withRc, h, RailState.active])
      (by rcases state with h | h <;> simp [RailStep.withRc, h, RailState.isCut]) rfl rfl
  have compared (x : RailStep) : x.Tells (comparedAfresh now z oc x) := by
    unfold comparedAfresh
    split
    · exact .of_same rfl rfl rfl
    · exact .trans (e' := x.withRc { x.rc with zone := z, overCurrent := oc }) (.of_same rfl rfl rfl) (railZoneArrival_tells now _)
  have arrived (x : RailStep) : x.Tells (writtenArrival now z oc x) :=
    .trans (e' := x.withRc ((x.rc.noteZone z).noteFlag oc)) (.of_same rfl rfl rfl) (compared _)
  have judged (x : RailStep) : x.Tells (writtenJudge now x) := by
    unfold writtenJudge
    split
    · exact .trans (e' := x.withRc { x.rc with armBackfeed := true }) (.of_same rfl rfl rfl) (judgeOff_tells now _)
    · exact .refl x
  exact ((written.trans (arrived _)).trans (judged _)).trans (.of_same rfl rfl rfl)

theorem down_congr {s t : State} (hr : t.rails = s.rails) (he : t.engine.run = s.engine.run) (hq : t.requests.queue = s.requests.queue)
    (hs : t.requests.slot = s.requests.slot) (h : s.down) : t.down := by
  obtain ⟨hrail, hrun, hqueue, hslot⟩ := h
  exact ⟨fun r => by rw [rail_congr hr]; exact hrail r, he.trans hrun, hq.trans hqueue, hs.trans hslot⟩

theorem applyWrite_down {s : State} (r : Rail) (hk : s.pins.kill = true) (h : s.down) : (applyWrite s r).down := by
  have fresh : (nextFree s).down := h
  have hd : (RailStep.of ((nextFree s).rail r)).Down := ⟨(fresh.1 r).1, (fresh.1 r).2, rfl⟩
  have moved : (writeDelta s r).s.down := commit_down ((railWrite_tells _ _ _ _ _).down hd) fresh
  have kill : (writeDelta s r).s.pins.kill = true :=
    (congrArg Pins.kill (onRail_elsewhere r _ (Delta.of (nextFree s))).pins).trans hk
  exact down_congr rfl rfl rfl rfl ((finish_paces _).down kill moved)

theorem Act.pins {s t : State} (h : Act s t) : t.pins = s.pins := by
  cases h with
  | rail | judged | shed | engine | waiting => rfl
  | fault x context => exact logFault_pins x context s

theorem Acts.pins {s t : State} (h : Acts s t) : t.pins = s.pins :=
  h.keeps (fun x => x.pins = s.pins) (fun _ _ ha hx => ha.pins.trans hx) rfl

theorem applyWrite_pins (s : State) (r : Rail) : (applyWrite s r).pins = s.pins := by
  obtain ⟨c, y, hy, he⟩ := applyWrite_acts s r
  rw [he]
  exact hy.pins

theorem killEffect_pins (s : State) : (killEffect s).pins = s.pins := (killEffect_acts s).pins

/-- The pins after a deed: only an edge of a pin moves one, and no deed moves RESET#. -/
theorem Deed.pins_cases {s t : State} (h : Deed s t) : t.pins = s.pins ∨ t.pins.inReset = s.pins.inReset
    ∧ (s.pins.inReset = false → (t.pins.kill = true → s.pins.kill = true) ∧ t = { s with pins := t.pins } ∨ t.down ∧ t.notify.shed = true) := by
  cases h with
  | rail | judged | acked | popped | config | bus | free | cancel | define | commit => exact .inl rfl
  | event d hd => exact .inl ((Moves.acts (finish_moves d)).pins.trans hd.acts.pins)
  | write r => exact .inl (applyWrite_pins s r)
  | record => exact .inl (logFault_pins _ _ s)
  | pins p hr hk => exact .inr ⟨hr, fun h => .inl ⟨hk h, rfl⟩⟩
  | erase p => exact .inl (emptyPlan_elsewhere p s).2.2.2.1
  | storeStep v => exact .inl (storeStep_elsewhere v s).2.2.2.1
  | join e => exact .inl (Moves.acts (joinQueue_moves e s)).pins
  | release run => exact .inl (release_acts run s).pins
  | abort => exact .inl (hostAbort_acts s).pins
  | quietExpiry => exact .inl (Moves.acts (quietExpiry_moves s)).pins
  | stepTimerExpiry => exact .inl (Moves.acts (stepTimerExpiry_moves s)).pins
  | holdExpiry => exact .inl (Moves.acts (holdExpiry_moves s)).pins
  | engineReset =>
    obtain ⟨-, -, -, -, hpins, -⟩ := hostEngineReset_leaves s
    exact .inl hpins
  | killEdge => exact .inr ⟨(congrArg Pins.inReset (killEffect_pins (s.setKill true)) :), fun _ => .inr ⟨killEffect_down _, rfl⟩⟩

theorem Deed.inReset {s t : State} (h : Deed s t) : t.pins.inReset = s.pins.inReset := by
  rcases h.pins_cases with h | h
  · rw [h]
  · exact h.1

/-- A deed of a part that is down while KILL# is asserted leaves it down. -/
theorem Deed.down {s t : State} (h : Deed s t) (hk : s.pins.kill = true) (hs : s.down) : t.down := by
  have run := hs.2.1
  cases h with
  | rail r c hc hst =>
    refine ⟨fun x => ?_, hs.2⟩
    rw [setRail_rail]
    split
    · rename_i hx; subst hx; rw [hst]; exact hs.1 r
    · exact hs.1 x
  | judged | acked | popped | config | bus | free | define | commit | pins => exact down_congr (s := s) rfl rfl rfl rfl hs
  | event d hd => exact (finish_paces d).down ((congrArg Pins.kill hd.elsewhere.pins).trans hk) (hd.down hk hs)
  | write r => exact applyWrite_down r hk hs
  | record kind role c => exact (Pace.beat (.record s kind role c)).paces.down hk hs
  | erase p =>
    obtain ⟨hrails, hengine, hrequests, -⟩ := emptyPlan_elsewhere p s
    exact down_congr hrails (by rw [hengine]) (by rw [hrequests]) (by rw [hrequests]) hs
  | storeStep v =>
    obtain ⟨hrails, hengine, hrequests, -⟩ := storeStep_elsewhere v s
    exact down_congr hrails (by rw [hengine]) (by rw [hrequests]) (by rw [hrequests]) hs
  | join e hn => rw [hk] at hn; cases hn
  | cancel i => exact ⟨hs.1, run, by simp [hs.2.2.1], hs.2.2.2⟩
  | release x hx => rw [run] at hx; cases hx
  | abort x hx => rw [run] at hx; cases hx
  | quietExpiry => exact (quietExpiry_paces s).down hk hs
  | stepTimerExpiry => exact (stepTimerExpiry_paces s).down hk hs
  | holdExpiry => exact (holdExpiry_paces s).down hk hs
  | engineReset =>
    obtain ⟨hrails, hrun, hqueue, hslot, -⟩ := hostEngineReset_leaves s
    exact down_congr hrails (hrun.trans run.symm) (hqueue.trans hs.2.2.1.symm) (hslot.trans hs.2.2.2.symm) hs
  | killEdge => exact killEffect_down _

/-- Outside a reset a deed keeps the law of KILL#. -/
theorem Deed.killLaw {s t : State} (h : Deed s t) (hr : s.pins.inReset = false) (hs : s.killLaw) : t.killLaw := by
  intro hk
  rcases h.pins_cases with hp | ⟨-, hp⟩
  · rw [hp] at hk
    exact h.down hk (hs hk)
  · rcases hp hr with ⟨hfall, -⟩ | ⟨hdown, -⟩
    · exact h.down (hfall hk) (hs (hfall hk))
    · exact hdown

theorem endOfReset_killLaw (s : State) : (endOfReset s).killLaw := by
  intro hk
  rcases endOfReset_cases s with ⟨-, h⟩ | ⟨hn, h⟩
  · rw [h]; exact killEffect_down _
  · rw [h] at hk
    exact absurd hk (by simp [resetBlocks, hn])

/-- Outside a reset every step keeps the law of KILL#. -/
theorem step_keeps_killLaw {s t : State} (h : step s = .next t) (hs : s.pins.inReset = false → s.killLaw) :
    t.pins.inReset = false → t.killLaw := by
  refine step_keeps (P := fun s => s.pins.inReset = false → s.killLaw) (fun _ _ h => h)
    (fun x y hd hx hr => hd.killLaw (hd.inReset ▸ hr) (hx (hd.inReset ▸ hr))) (fun s h => ?_) (fun s _ => ?_) (fun s h => ?_) (fun s h => ?_) h hs
  · unfold uptimeTick
    split
    · exact h
    · exact h
  · unfold powerOn
    split
    · rename_i hr
      exact fun hn => absurd hr (by simpa [resetBlocks] using hn)
    · exact fun _ => endOfReset_killLaw s
  · unfold resetAssert
    split
    · exact h
    · exact fun hn => by cases hn
  · unfold resetDeassert
    split
    · exact fun _ => endOfReset_killLaw _
    · exact h

/-! ### The SHED latch -/

/-- What sets the SHED latch for as long as it stands (R170). -/
def State.shedCause (s : State) : Prop :=
  s.pins.kill = true ∨ ∃ r : Rail, (s.rail r).cfg.shedMember = true ∧ (s.rail r).state.isCut

theorem shedLaw_congr {s t : State} (hp : t.pins = s.pins) (hr : ∀ r, (t.rail r).cfg.shedMember = (s.rail r).cfg.shedMember)
    (hs : ∀ r, (t.rail r).state = (s.rail r).state) (hn : s.notify.shed = true → t.notify.shed = true) (h : s.shedLaw) : t.shedLaw := by
  intro hin hc
  refine hn (h (by rw [← hp]; exact hin) ?_)
  rcases hc with hk | ⟨r, hm, hcut⟩
  · exact .inl (by rw [← hp]; exact hk)
  · exact .inr ⟨r, by rw [← hr]; exact hm, by rw [← hs]; exact hcut⟩

theorem shedLaw_of_shed {s : State} (h : s.notify.shed = true) : s.shedLaw := fun _ _ => h

theorem logFault_shed (x : Subject) (c : Option PlanContext) (s : State) : (logFault x c s).notify.shed = s.notify.shed := by
  unfold logFault
  split <;> rfl

theorem foldl_shed {α : Type} {f : State → α → State} (h : ∀ (s : State) (x : α), (f s x).notify.shed = s.notify.shed) (l : List α) (s : State) :
    (l.foldl f s).notify.shed = s.notify.shed := by
  induction l generalizing s with
  | nil => rfl
  | cons x l ih => exact (ih (f s x)).trans (h s x)

theorem cascadeAll_shed (origin : Rail) (taken : RailSet) (s : State) : (cascadeAll origin taken s).notify.shed = s.notify.shed := by
  have one (cause : Option Rail) (x : Rail) (t : State) : (cascadeOne cause x t).notify.shed = t.notify.shed := logFault_shed _ _ (t.setRail x _)
  unfold cascadeAll
  exact foldl_shed (fun t x => one _ x t) _ s

theorem logDecls_shed (r : Rail) (l : List Decl) (s : State) : (logDecls r l s).notify.shed = s.notify.shed := by
  unfold logDecls
  exact foldl_shed (fun t d => logFault_shed _ _ t) l s

/-- A rail event leaves the latch itself to the end of the event (R65, R169). -/
theorem commit_shed (r : Rail) (e : RailStep) (d : Delta) : (commit r e d).s.notify.shed = d.s.notify.shed := by
  rw [commit_s, cascadeAll_shed, logDecls_shed]
  rfl

/-- In the midst of an event each cut shed member is on the latch or will be handed on. -/
def Delta.toldShed (d : Delta) : Prop :=
  d.s.pins.inReset = false → d.s.shedCause → d.s.notify.shed = true ∨ d.shed = true

theorem commit_toldShed {r : Rail} {e : RailStep} {d : Delta}
    (he : e.rc.state.isCut → e.rc.cfg.shedMember = true →
      (d.s.rail r).state.isCut ∧ (d.s.rail r).cfg.shedMember = true ∨ e.entered = true) (hd : d.toldShed) : (commit r e d).toldShed := by
  have pins := (commit_elsewhere r e d).pins
  intro hin hc
  rw [commit_shed]
  have before (h : d.s.shedCause) : d.s.notify.shed = true ∨ (commit r e d).shed = true := by
    refine (hd (pins ▸ hin) h).imp_right fun ht => ?_
    simp only [commit, ht, Bool.true_or]
  rcases hc with hk | ⟨x, hm, hcut⟩
  · exact before (.inl (pins ▸ hk))
  · rw [commit_rail] at hm hcut
    by_cases htaken : e.ownCut = true ∧ RailSet.has ((logDecls r e.decls (d.s.setRail r e.rc)).descendants r) x = true
        ∧ (if r = x then e.rc else d.s.rail x).state.active = true
    · rw [if_pos htaken] at hm
      obtain ⟨hown, hfound, hactive⟩ := htaken
      rw [← setRail_rail, ← logDecls_rail r e.decls] at hactive
      have hmember : ((logDecls r e.decls (d.s.setRail r e.rc)).rail x).cfg.shedMember = true := by
        rw [logDecls_rail, setRail_rail, ← cutTo_cfg d.s.now .locked]
        exact hm
      refine .inr ?_
      simp only [commit, hown, if_true, Bool.or_eq_true, List.any_eq_true]
      exact .inr ⟨x, (mem_rails _ x).mpr (by rw [has_taken, hfound, hactive]; rfl), hmember⟩
    · rw [if_neg htaken] at hm hcut
      by_cases hx : r = x
      · subst hx
        rw [if_pos rfl] at hm hcut
        rcases he hcut hm with ⟨hc, hb⟩ | hentered
        · exact before (.inr ⟨r, hb, hc⟩)
        · refine .inr ?_
          simp only [commit, hentered, hm, Bool.and_self, Bool.or_true, Bool.true_or]
      · rw [if_neg hx] at hm hcut
        exact before (.inr ⟨x, hm, hcut⟩)

theorem Stirs.toldShed {d d' : Delta} (h : Stirs d d') (hd : d.toldShed) : d'.toldShed := by
  induction h with
  | refl => exact hd
  | tail _ hs ih =>
    cases hs with
    | rail r f hl =>
      refine commit_toldShed (fun hc hm => ?_) ih
      exact (hl.entered hc).imp_left fun h => ⟨h, hl.cfg ▸ hm⟩

theorem toldShed_of {s : State} (h : s.shedLaw) : (Delta.of s).toldShed := fun hr hc => .inl (h hr hc)

theorem absorb_shedLaw {d : Delta} (w : Work) (h : d.toldShed) : (absorb d w).s.shedLaw := by
  have rails (r : Rail) := addChanged_list_rail (RailSet.rails d.changed) d.s r
  have pins := (addChanged_list_elsewhere (RailSet.rails d.changed) d.s).pins
  have latch := foldl_shed (f := fun t r => addChanged r t) (fun _ _ => rfl) (RailSet.rails d.changed) d.s
  unfold absorb
  dsimp only
  split
  · exact shedLaw_of_shed rfl
  · rename_i hn
    refine shedLaw_congr (s := d.s) pins (fun r => by rw [rails]) (fun r => by rw [rails]) (fun hs => latch.trans hs) (fun hr hc => ?_)
    exact (h hr hc).resolve_right hn

theorem Beat.shedLaw {s t : State} (h : Beat s t) (hs : s.shedLaw) : t.shedLaw := by
  cases h with
  | timers | edit | report | flag | changed | unwind => exact shedLaw_congr (s := s) rfl (fun _ => rfl) (fun _ => rfl) id hs
  | shed => exact shedLaw_of_shed rfl
  | record _ kind role c =>
    have rails (r : Rail) := logEngine_rail kind role c s r
    exact shedLaw_congr (logFault_pins _ _ s) (fun r => by rw [rails]) (fun r => by rw [rails]) (fun h => (logFault_shed _ _ s).trans h) hs
  | issued w kind st => exact absorb_shedLaw w ((issue_stirs kind st w.s).toldShed (toldShed_of hs))

theorem Pace.shedLaw {s t : State} (h : Pace s t) (hs : s.shedLaw) : t.shedLaw := by
  cases h with
  | beat h => exact h.shedLaw hs
  | start x s1 phase h =>
    rcases takeNext_cases h with ⟨q, -, -, rfl⟩ | ⟨-, e, l, -, rfl, -⟩
    · exact shedLaw_congr (s := s) rfl (fun _ => rfl) (fun _ => rfl) id hs
    · exact shedLaw_congr (s := s) rfl (fun _ => rfl) (fun _ => rfl) id hs
  | idle | urgent | slot => exact shedLaw_congr (s := s) rfl (fun _ => rfl) (fun _ => rfl) id hs

theorem Paces.shedLaw {s t : State} (h : Paces s t) (hs : s.shedLaw) : t.shedLaw := h.keeps State.shedLaw (fun _ _ hp => hp.shedLaw) hs

/-- The hand-on of an event sets the latch when it is told to. -/
theorem finish_shedLaw {d : Delta} (h : d.toldShed) : (finish d).shedLaw := by
  simp only [finish]
  split
  · exact shedLaw_of_shed rfl
  · rename_i hn
    exact (finishWork_handOn_paces d).shedLaw (fun hr hc => (h hr hc).resolve_right hn)

theorem applyWrite_shedLaw {s : State} (r : Rail) (hw : (judgeWrite s r).code = .accepted) (h : s.shedLaw) : (applyWrite s r).shedLaw := by
  obtain ⟨hst, -⟩ := judgeWrite_accepted hw
  refine shedLaw_congr (s := finish (writeDelta s r)) rfl (fun _ => rfl) (fun _ => rfl) id (finish_shedLaw (commit_toldShed (fun hc _ => ?_) (toldShed_of h)))
  refine .inr (((railWrite_tells _ _ _ _ _).entered hc).resolve_left fun hb => ?_)
  have hb : (s.rail r).state.isCut := hb
  rcases hst with h | h <;> rw [h] at hb <;> rcases hb with hb | hb <;> cases hb

theorem Deed.shedLaw {s t : State} (h : Deed s t) (hs : s.shedLaw) : t.shedLaw := by
  cases h with
  | rail r c hc hst =>
    refine shedLaw_congr (s := s) rfl (fun x => by rw [setRail_cfg hc]) (fun x => ?_) id hs
    rw [setRail_rail]
    split
    · rename_i hx; subst hx; exact hst
    · rfl
  | event d hd => exact finish_shedLaw (hd.toldShed (toldShed_of hs))
  | write r hw => exact applyWrite_shedLaw r hw hs
  | record kind role c => exact (Beat.record s kind role c).shedLaw hs
  | judged | popped | config | bus | free | define | commit | cancel =>
    exact shedLaw_congr (s := s) rfl (fun _ => rfl) (fun _ => rfl) id hs
  | acked hk hb =>
    intro _ hc
    rcases hc with h | ⟨r, hm, hcut⟩
    · rw [show s.pins.kill = true from h] at hk; cases hk
    · have := lowestRail_eq_none.mp hb r
      rcases hcut with h | h <;> simp_all
  | pins p hr hk =>
    intro hin hc
    refine hs (hr.symm.trans hin) ?_
    exact hc.imp_left fun h => hk (hr.symm.trans hin) h
  | erase p =>
    obtain ⟨hrails, -, -, hpins, hnotify⟩ := emptyPlan_elsewhere p s
    exact shedLaw_congr hpins (fun r => by rw [rail_congr hrails]) (fun r => by rw [rail_congr hrails]) (fun h => by rw [hnotify]; exact h) hs
  | storeStep v =>
    obtain ⟨hrails, -, -, hpins, hnotify⟩ := storeStep_elsewhere v s
    exact shedLaw_congr hpins (fun r => by rw [rail_congr hrails]) (fun r => by rw [rail_congr hrails]) (fun h => by rw [hnotify]; exact h) hs
  | join e =>
    cases hi : s.engine.run with
    | some run =>
      rw [joinQueue_of_running e (by simp [hi])]
      exact shedLaw_congr (s := s) rfl (fun _ => rfl) (fun _ => rfl) id hs
    | none =>
      obtain ⟨x, s1, phase, hx, hp⟩ := joinQueue_paces_of_idle e s hi
      refine hp.shedLaw ?_
      exact (Pace.start _ x s1 phase hx).shedLaw (shedLaw_congr (s := s) rfl (fun _ => rfl) (fun _ => rfl) id hs)
  | release run => exact (release_paces run s).shedLaw hs
  | abort => exact (hostAbort_paces s).shedLaw hs
  | quietExpiry => exact (quietExpiry_paces s).shedLaw hs
  | stepTimerExpiry => exact (stepTimerExpiry_paces s).shedLaw hs
  | holdExpiry => exact (holdExpiry_paces s).shedLaw hs
  | engineReset =>
    obtain ⟨hrails, -, -, -, hpins, hshed⟩ := hostEngineReset_leaves s
    exact shedLaw_congr hpins (fun r => by rw [rail_congr hrails]) (fun r => by rw [rail_congr hrails]) (fun h => hshed.trans h) hs
  | killEdge => exact shedLaw_of_shed rfl

theorem resetBlocks_state (s : State) (r : Rail) : ((resetBlocks s).rail r).state = .unused := by
  rw [resetBlocks_rail]
  rfl

theorem endOfReset_shedLaw (s : State) : (endOfReset s).shedLaw := by
  rcases endOfReset_cases s with ⟨-, h⟩ | ⟨hk, h⟩
  · rw [h]; exact shedLaw_of_shed rfl
  · rw [h]
    intro _ hc
    rcases hc with h | ⟨r, -, hcut⟩
    · rw [show s.pins.kill = true from h] at hk; cases hk
    · rw [show ((setFlag .restart (resetBlocks s)).rail r).state = _ from resetBlocks_state s r] at hcut
      rcases hcut with h | h <;> cases h

/-- Settles O13: each entry into FAULTED or LOCKED is told to the latch in its event, and SHED_ACK clears it with no cause standing. -/
theorem stepKeepsShedLaw : Obligations.StepKeepsShedLaw := by
  intro s t h hs
  refine step_keeps (P := State.shedLaw) (fun _ _ h => h) (fun _ _ hd => hd.shedLaw) (fun s h => ?_) (fun s _ => ?_) (fun s h => ?_)
    (fun s h => ?_) h hs
  · unfold uptimeTick
    split
    · exact h
    · exact h
  · unfold powerOn
    split
    · rename_i hr
      exact fun hn => absurd hr (by simpa [resetBlocks] using hn)
    · exact endOfReset_shedLaw s
  · unfold resetAssert
    split
    · exact h
    · exact fun hn => by cases hn
  · unfold resetDeassert
    split
    · exact endOfReset_shedLaw _
    · exact h

/-! ### A held reset -/

/-- Nothing waits to be handed on. -/
theorem finishWork_of (s : State) : finishWork { s := s, reqs := [] } = s := rfl

theorem finish_of (s : State) : finish (Delta.of s) = s := by
  have quiet : handOn (Delta.of s) = { s := s, reqs := [] } := by simp [handOn, Delta.of]
  rw [finish, quiet, finishWork_of]
  rfl

theorem setRail_self (s : State) (r : Rail) : s.setRail r (s.rail r) = s := by
  rw [← mapRails_singleton s r (fun r => s.rail r)]
  exact mapRails_eq (w := s.rails) (fun x => by simp [State.rail])

/-- A transition that leaves its rail as it is does nothing. -/
theorem onRail_of_same {r : Rail} {f : RailStep → RailStep} {s : State} (h : f (.of (s.rail r)) = .of (s.rail r)) :
    onRail r f (Delta.of s) = Delta.of s := by
  rw [onRail, show (Delta.of s).s = s from rfl, h, commit_of_quiet ⟨rfl, rfl⟩]
  simp [RailStep.of, Delta.of, setRail_self]

theorem railExpiry_of_same {r : Rail} {f : RailStep → RailStep} {s : State} (h : f (.of (s.rail r)) = .of (s.rail r)) :
    railExpiry r f s = s := by
  rw [railExpiry, onRail_of_same h, finish_of]

/-- What may still move while RESET# is asserted. -/
inductive HeldMove (s : State) : State → Prop where
  | refl : HeldMove s s
  | driven : HeldMove s { s with bus := { s.bus with lastRead := 0 } }
  | pins (p : Pins) (hr : p.inReset = s.pins.inReset) : HeldMove s { s with pins := p }
  | sense (r : Rail) (mv ma : Nat) : HeldMove s (s.setRail r { s.rail r with senseMv := mv, senseMa := ma })

theorem HeldMove.heldLaw {s t : State} (h : HeldMove s t) (hs : s.heldLaw) : t.heldLaw := by
  cases h with
  | refl => exact hs
  | driven =>
    intro hr
    obtain ⟨hrail, hstore, hengine, hrequests, hlog, hnotify, hbus⟩ := hs hr
    exact ⟨hrail, hstore, hengine, hrequests, hlog, hnotify, by show ({ s.bus with lastRead := 0 } : HostBus) = _; rw [hbus]⟩
  | pins p hp => exact fun hr => hs (hp.symm.trans hr)
  | sense r mv ma =>
    intro hr
    obtain ⟨hrail, rest⟩ := hs hr
    refine ⟨fun x => ?_, rest⟩
    rw [setRail_rail]
    split
    · rw [hrail r]; rfl
    · exact hrail x

theorem busWrite_held {s : State} (f : State → State) (hr : s.pins.inReset = true) : HeldMove s (busWrite f s) := by
  rw [busWrite, if_pos hr]
  exact .refl

theorem busRead_held {s : State} (f : State → Byte × State) (hr : s.pins.inReset = true) : HeldMove s (busRead f s) := by
  rw [busRead, if_pos hr]
  exact .driven

theorem writeCmd_held {s : State} (code : Byte) (hr : s.pins.inReset = true) : HeldMove s (writeCmd code s) := by
  unfold writeCmd
  split <;> exact busWrite_held _ hr

theorem writeLocation_held {s : State} (addr : Addr) (v : Byte) (hr : s.pins.inReset = true) : HeldMove s (writeLocation addr v s) := by
  unfold writeLocation
  split
  case h_5 => exact writeCmd_held v hr
  case h_15 => exact .refl
  all_goals exact busWrite_held _ hr

theorem zoneArrival_held {s : State} (r : Rail) (z : Zone) (mv : Nat) (hr : s.pins.inReset = true) : HeldMove s (zoneArrival r z mv s) := by
  rw [zoneArrival, if_pos hr]
  exact .sense r mv (s.rail r).senseMa

theorem overCurrentArrival_held {s : State} (r : Rail) (b : Bool) (ma : Nat) (hr : s.pins.inReset = true) :
    HeldMove s (overCurrentArrival r b ma s) := by
  rw [overCurrentArrival, if_pos hr]
  exact .sense r (s.rail r).senseMv ma

theorem setXf_held (s : State) (x : XfInput) (level : Bool) : HeldMove s (s.setXf x level) := by
  cases x with
  | xf0 => exact .pins { s.pins with xf0 := level } rfl
  | xf1 => exact .pins { s.pins with xf1 := level } rfl

theorem xfAssertion_held {s : State} (x : XfInput) (hr : s.pins.inReset = true) : HeldMove s (xfAssertion x s) := by
  unfold xfAssertion
  split
  · exact .refl
  · exact setXf_held s x true

theorem xfDeassertion_held {s : State} (x : XfInput) (hr : s.pins.inReset = true) : HeldMove s (xfDeassertion x s) := by
  unfold xfDeassertion
  split
  · exact .refl
  · exact setXf_held s x false

theorem killAssertion_held {s : State} (hr : s.pins.inReset = true) : HeldMove s (killAssertion s) := by
  unfold killAssertion
  split
  · exact .refl
  · exact .pins { s.pins with kill := true } rfl

theorem killDeassertion_held {s : State} (hr : s.pins.inReset = true) : HeldMove s (killDeassertion s) := by
  unfold killDeassertion
  split
  · exact .refl
  · exact .pins { s.pins with kill := false } rfl

theorem pwrreqFalling_held {s : State} (hr : s.pins.inReset = true) : HeldMove s (pwrreqFalling s) := by
  unfold pwrreqFalling
  split
  · exact .refl
  · exact .pins { s.pins with pwrreq := true } rfl

section Expiries

variable {s : State} (r : Rail)

/-- A rail at its reset values has no timer that could run out. -/
theorem railExpiries_idle (now : Uptime) (xf on kill : Bool) {c : RailChan} (hs : c.state = .unused) (hd : c.dischargeT = none) :
    railRampExpiry now (.of c) = .of c ∧ railSettleExpiry (.of c) = .of c ∧ railDischargeExpiry (.of c) = .of c
      ∧ railBackfeedExpiry (.of c) = .of c ∧ railUvExpiry now (.of c) = .of c ∧ railOcExpiry now (.of c) = .of c
      ∧ railRetryExpiry now xf on kill (.of c) = .of c := by
  simp [railRampExpiry, railSettleExpiry, railDischargeExpiry, railBackfeedExpiry, railUvExpiry, railOcExpiry, railRetryExpiry,
    RailStep.of, hs, hd, RailState.active]

end Expiries

/-- While RESET# is asserted a command that is no reset moves the inputs at most, and what a read drives. -/
theorem exec_held {c : Instr} {s t : State} (h : exec c s = .next t) (hc : Instr.ordinary c) (hr : s.pins.inReset = true)
    (hs : s.heldLaw) : HeldMove s t := by
  obtain ⟨hrail, -, hengine, -⟩ := hs hr
  have still (r : Rail) := railExpiries_idle s.now (s.boundAsserted r) (s.parentNotOn r).isNone s.pins.kill (c := s.rail r)
    (by rw [hrail r]; rfl) (by rw [hrail r]; rfl)
  have idle : s.engine.run = none := by rw [hengine]; rfl
  have expiry {r : Rail} {f : RailStep → RailStep} (hf : f (.of (s.rail r)) = .of (s.rail r)) : HeldMove s (railExpiry r f s) := by
    rw [railExpiry_of_same hf]; exact .refl
  obtain ⟨hpower, hassert, hdeassert, htick⟩ := hc
  cases c <;> injection h with h <;> subst h
  case powerOnReset => exact absurd rfl hpower
  case resetAssertion => exact absurd rfl hassert
  case resetDeassertion => exact absurd rfl hdeassert
  case uptimeTick => exact absurd rfl htick
  case badCommand code => exact writeCmd_held code hr
  case tdataRead | upt0Read | engstLowRead => exact busRead_held _ hr
  case registerWrite a v => exact writeLocation_held a v hr
  case killAssertionEdge => exact killAssertion_held hr
  case killDeassertionEdge => exact killDeassertion_held hr
  case xfAssertionEdge x => exact xfAssertion_held x hr
  case xfDeassertionEdge x => exact xfDeassertion_held x hr
  case pwrreqFallingEdge => exact pwrreqFalling_held hr
  case pwrreqRisingEdge => exact .pins { s.pins with pwrreq := false } rfl
  case zoneArrival r z mv => exact zoneArrival_held r z mv hr
  case overCurrentArrival r b ma => exact overCurrentArrival_held r b ma hr
  case rampExpiry r => obtain ⟨h, -⟩ := still r; exact expiry h
  case settleExpiry r => obtain ⟨-, h, -⟩ := still r; exact expiry h
  case dischargeExpiry r => obtain ⟨-, -, h, -⟩ := still r; exact expiry h
  case backfeedFilterExpiry r => obtain ⟨-, -, -, h, -⟩ := still r; exact expiry h
  case uvFilterExpiry r => obtain ⟨-, -, -, -, h, -⟩ := still r; exact expiry h
  case ocFilterExpiry r => obtain ⟨-, -, -, -, -, h, -⟩ := still r; exact expiry h
  case retryExpiry r => obtain ⟨-, -, -, -, -, -, h⟩ := still r; exact expiry h
  case quietExpiry => rw [quietExpiry, idle]; exact .refl
  case stepTimerExpiry => rw [stepTimerExpiry, idle]; exact .refl
  case holdExpiry => rw [holdExpiry, idle]; exact .refl
  all_goals exact busWrite_held _ hr

theorem resetBlocks_heldLaw (s : State) : (resetBlocks s).heldLaw :=
  fun _ => ⟨fun r => by rw [resetBlocks_rail]; rfl, rfl, rfl, rfl, rfl, rfl, rfl⟩

theorem endOfReset_inReset (s : State) : (endOfReset s).pins.inReset = s.pins.inReset :=
  congrArg Pins.inReset (endOfReset_acts s).pins

/-- Settles O16: RESET# asserted puts every block at its reset values, and until it is deasserted the inputs alone move. -/
theorem stepKeepsHeldLaw : Obligations.StepKeepsHeldLaw := by
  intro s t h hs
  unfold step at h
  split at h
  · injection h with h
    exact h ▸ hs
  · rename_i c l _
    have hs' : (s.withPending l).heldLaw := hs
    by_cases hc : Instr.ordinary c
    · by_cases hr : s.pins.inReset = true
      · exact (exec_held h hc hr hs').heldLaw hs'
      · have same : t.pins.inReset = s.pins.inReset :=
          (exec_deeds h hc).keeps (fun x => x.pins.inReset = s.pins.inReset) (fun _ _ hd hx => hd.inReset.trans hx) rfl
        exact fun ht => absurd (same.symm.trans ht) hr
    · simp only [Instr.ordinary, ne_eq, not_and_or, not_not] at hc
      generalize s.withPending l = u at h hs'
      rcases hc with rfl | rfl | rfl | rfl <;> injection h with h <;> subst h
      · unfold powerOn
        split
        · exact resetBlocks_heldLaw u
        · rename_i hr
          exact fun ht => absurd ((endOfReset_inReset u).symm.trans ht) hr
      · unfold resetAssert
        split
        · exact hs'
        · exact resetBlocks_heldLaw _
      · unfold resetDeassert
        split
        · exact fun ht => absurd ((endOfReset_inReset (u.setReset false)).symm.trans ht) (by simp [State.setReset])
        · exact hs'
      · unfold uptimeTick
        split
        · exact hs'
        · rename_i hr
          exact fun ht => absurd ht hr

theorem heldLaw_down {s : State} (hr : s.pins.inReset = true) (h : s.heldLaw) : s.down := by
  obtain ⟨hrail, -, hengine, hrequests, -⟩ := h hr
  exact ⟨fun r => by rw [hrail r]; exact ⟨rfl, by simp [RailChan.atReset]⟩, by rw [hengine]; rfl, by rw [hrequests]; rfl, by rw [hrequests]; rfl⟩

/-- Settles O17: outside a reset by the deeds, inside one by the law of the held reset. -/
theorem stepKeepsKillLaw : Obligations.StepKeepsKillLaw := by
  intro s t h hheld hs hk
  by_cases hr : t.pins.inReset = true
  · exact heldLaw_down hr (stepKeepsHeldLaw s t h hheld)
  · exact step_keeps_killLaw h (fun _ => hs) (by simpa using hr) hk

end Sys2Proof.Machine
end

section
/-! PROOFS. The queue of commands, the part right after reset, and the register window: which row a write cycle is (R174, R177), the flags and the
configuration (R130, R162 to R167), the table port (R179 to R182), and the views and snapshots (R157, R175, R184). -/

namespace Sys2Proof.Machine

/-! ### The queue of commands -/

/-- Settles O1: the two branches of a step. -/
theorem stepRunsFrontCommand : Obligations.StepRunsFrontCommand :=
  ⟨fun s c l h => by simp only [step, h], fun s h => by simp only [step, h]⟩

/-! ### The part right after reset -/

theorem reset_rail (r : Rail) : State.reset.rail r = RailChan.atReset .zero false 0 0 := by
  simp [State.reset, State.rail]

/-- Settles O2: the window is read location by location, and every rail holds the reset record. -/
theorem resetWindowReads : Obligations.ResetWindowReads :=
  ⟨by decide, fun r => by rw [reset_rail]; decide⟩

/-- Settles O4: every rail is at its reset values, the store is EMPTY, nothing runs, waits or is recorded. -/
theorem resetObeysEveryLaw : Obligations.ResetObeysEveryLaw := by
  have state (r : Rail) : (State.reset.rail r).state = .unused := by rw [reset_rail]; rfl
  have inactive (r : Rail) : (State.reset.rail r).state.active = false := by rw [state]; rfl
  have parents (r : Rail) : (State.reset.rail r).cfg.parents = [] := by rw [reset_rail]; rfl
  have plan (p : PlanNo) : State.reset.plan p = Plan.blank := by simp [State.plan, State.reset, PlanStore.reset]
  refine ⟨fun r => ?_, fun r => ?_, fun r => ?_, fun r => ?_, fun r p hp => ?_, fun r p ha => ?_, ?_, ?_, ?_, ?_, ?_, ?_, ?_, ?_⟩
  · rw [reset_rail]; simp [RailChan.outputsLaw, RailChan.atReset, RailState.active]
  · rw [reset_rail]; simp [RailChan.timersLaw, RailChan.atReset]
  · rw [reset_rail]; simp [RailChan.retryLaw, RailChan.atReset]
  · rw [reset_rail]; simp [RailChan.latchedLaw, RailChan.atReset, hasKind]
  · simp [parents] at hp
  · simp [inactive] at ha
  · simp [State.intLaw, State.reset, Notify.reset, Notify.evt]
  · simp [State.fltLaw, State.reset, FaultLog.reset]
  · simp [State.logLaw, FaultLog.oneEach, State.reset, FaultLog.reset]
  · rintro - (hk | ⟨r, -, hc⟩)
    · cases hk
    · simp [state] at hc
  · exact ⟨fun p => by rw [plan]; simp [Plan.blank, State.reset, PlanStore.reset], fun p => by rw [plan]; simp [Plan.blank], fun _ => rfl⟩
  · exact runLaw_of_cleared rfl rfl rfl
  · intro hk; cases hk
  · intro hr; cases hr

/-! ### The row of a write cycle -/

theorem commandOf_code (c : Command) : commandOf c.code = some c := by
  cases c <;> decide

theorem code_of_commandOf {code : Byte} {c : Command} (h : commandOf code = some c) : c.code = code := by
  have := List.find?_some h
  simpa using this

/-- The row of a code is the write of it to CMD (R177). -/
theorem exec_rowOfCode (code : Byte) (s : State) : exec (rowOfCode code) s = .next (writeCmd code s) := by
  unfold rowOfCode writeCmd
  cases hc : commandOf code with
  | none =>
    show Host.Outcome.next (writeCmd code s) = _
    rw [writeCmd, hc]
  | some c =>
    obtain rfl := code_of_commandOf hc
    cases c <;> rfl

/-- The row of a write cycle is the write to its location (R174; log entry 16). -/
theorem exec_rowOfWrite (addr : Addr) (v : Byte) (s : State) : exec (rowOfWrite addr v) s = .next (writeLocation addr v s) := by
  unfold rowOfWrite
  split
  case h_5 h =>
    rw [exec_rowOfCode]
    simp only [writeLocation, h]
  case h_10 => rfl
  all_goals
    rename_i h
    simp only [writeLocation, h]
    rfl

theorem writeLocation_inReset {s : State} (addr : Addr) (v : Byte) (hr : s.pins.inReset = true) : writeLocation addr v s = s := by
  have ignored (f : State → State) : busWrite f s = s := if_pos hr
  unfold writeLocation writeCmd hostCommand
  split
  case h_5 => split <;> exact ignored _
  case h_15 => rfl
  all_goals exact ignored _

/-- The three reads that have a row of their own (R174). -/
theorem rowOfRead_cases {addr : Addr} {i : Instr} (h : rowOfRead addr = some i) :
    addr.toNat = 0x10 ∧ i = .engstLowRead ∨ addr.toNat = 0x1B ∧ i = .tdataRead ∨ addr.toNat = 0x20 ∧ i = .upt0Read := by
  unfold rowOfRead at h
  split at h
  · rename_i ha; exact .inl ⟨ha, (Option.some.inj h).symm⟩
  · rename_i ha; exact .inr (.inl ⟨ha, (Option.some.inj h).symm⟩)
  · rename_i ha; exact .inr (.inr ⟨ha, (Option.some.inj h).symm⟩)
  · cases h

/-- Settles O6: a write cycle is a write to its location and a read cycle one of three, and each asks first whether RESET# is asserted. -/
theorem noBusCycleInReset : Obligations.NoBusCycleInReset := by
  intro s hr
  refine ⟨fun addr v => by rw [exec_rowOfWrite, writeLocation_inReset addr v hr], fun addr i h => ?_, fun addr => ?_⟩
  · have driven (f : State → Byte × State) : busRead f s = { s with bus := { s.bus with lastRead := 0 } } := if_pos hr
    rcases rowOfRead_cases h with ⟨-, rfl⟩ | ⟨-, rfl⟩ | ⟨-, rfl⟩
    · exact congrArg Host.Outcome.next (driven readEngstLow)
    · exact congrArg Host.Outcome.next (driven readTdata)
    · exact congrArg Host.Outcome.next (driven readUpt0)
  · have read : readRegister s addr = 0 := if_pos hr
    exact ⟨read, congrArg some read⟩

/-! ### Refusals -/

/-- An answer that is neither ACCEPTED nor PARTIAL comes from an owner that has left the part as it was, and ALREADY comes with detail 0. -/
structure Honest (s : State) (x : Verdict × State) : Prop where
  kept : x.1.code ≠ .accepted → x.1.code ≠ .partialResult → x.2 = s
  already : x.1.code = .already → x.1.detail = 0

theorem Honest.of_kept {s : State} {v : Verdict} (h : v.code = .already → v.detail = 0) : Honest s (v, s) := ⟨fun _ _ => rfl, h⟩

theorem Honest.of_plain (s : State) (k : Result) : Honest s (.plain k, s) := .of_kept (fun _ => rfl)

theorem Honest.of_not_already {s : State} {v : Verdict} (h : v.code ≠ .already) : Honest s (v, s) := .of_kept (fun h' => absurd h' h)

theorem Honest.of_accepted {s t : State} {v : Verdict} (h : v.code = .accepted) : Honest s (v, t) :=
  ⟨fun h' => absurd h h', fun h' => by rw [h] at h'; cases h'⟩

/-- A judgement that answers ALREADY with detail 0. -/
abbrev PlainAlready (judge : State → Rail → Verdict) : Prop := ∀ s r, (judge s r).code = .already → (judge s r).detail = 0

theorem judgeRaise_plainAlready : PlainAlready judgeRaise := by
  intro s r
  unfold judgeRaise
  split
  · split
    · intro h; cases h
    · split_ifs <;> exact fun _ => rfl
  · exact fun _ => rfl
  · exact fun _ => rfl
  · exact fun _ => rfl

theorem judgeLower_plainAlready : PlainAlready judgeLower := by
  intro s r
  unfold judgeLower
  split
  iterate 2
    · split
      · intro h; cases h
      · exact fun _ => rfl
  · exact fun _ => rfl
  · exact fun _ => rfl
  · exact fun _ => rfl

theorem judgeClear_plainAlready : PlainAlready judgeClear := by
  intro s r
  unfold judgeClear
  split
  iterate 2
    · split
      · intro h; cases h
      · split_ifs <;> exact fun _ => rfl
  · exact fun _ => rfl
  · exact fun _ => rfl

/-- A rail or group command that changes rails when it accepts alone. -/
structure HonestRails (s : State) (x : Verdict × Delta) : Prop where
  kept : x.1.code ≠ .accepted → x.1.code ≠ .partialResult → x.2 = Delta.of s
  already : x.1.code = .already → x.1.detail = 0

theorem HonestRails.of_kept {s : State} {v : Verdict} (h : v.code = .already → v.detail = 0) : HonestRails s (v, Delta.of s) := ⟨fun _ _ => rfl, h⟩

theorem HonestRails.ownRails {s : State} {f : State → Verdict × Delta} (h : HonestRails s (f s)) : Honest s (ownRails f s) :=
  ⟨fun h1 h2 => (congrArg finish (h.kept h1 h2)).trans (finish_of s), h.already⟩

theorem railCommandOf_honest {judge : State → Rail → Verdict} (act : Rail → Delta → Delta) (h : PlainAlready judge) (b : Byte) (s : State) :
    HonestRails s (railCommandOf judge act b s) := by
  unfold railCommandOf
  split
  · exact .of_kept (fun _ => rfl)
  · exact ⟨fun hn _ => if_neg hn, h s _⟩

/-- The code of a group command over rails: ACCEPTED or PARTIAL, or a refusal when no rail is accepted (R68). -/
theorem groupVerdict_cases (l : List (Rail × Verdict)) :
    (groupVerdict l).code = .accepted ∨ (groupVerdict l).code = .partialResult
      ∨ l.filter (fun x => x.2.code == .accepted) = [] ∧ (groupVerdict l).code.isRefusal = true := by
  unfold groupVerdict
  dsimp only
  split
  · exact .inl rfl
  · rename_i x l' hx
    split
    · exact .inr (.inl rfl)
    · rename_i hl
      have hm : x ∈ l.filter (fun x => x.2.code.isRefusal) := by rw [hx]; exact List.mem_cons_self
      exact .inr (.inr ⟨List.length_eq_zero_iff.mp (not_not.mp hl), by simpa using (List.mem_filter.mp hm).2⟩)

theorem groupEach_of_empty (judge : State → Rail → Verdict) (act : Rail → Delta → Delta) {tag mask : BitVec 4} {s : State}
    (h : s.selected tag mask = []) : groupEach judge act tag mask s = (.plain .emptyGroup, Delta.of s) := by
  simp only [groupEach, h]

theorem groupEach_of_selected (judge : State → Rail → Verdict) (act : Rail → Delta → Delta) {tag mask : BitVec 4} {s : State} {sel : List Rail}
    (hs : s.selected tag mask = sel) (h : sel ≠ []) :
    groupEach judge act tag mask s = (groupVerdict (sel.map (fun r => (r, judge s r))),
      (sel.filter (fun r => (judge s r).code == .accepted)).foldl (fun d r => act r d) (Delta.of s)) := by
  obtain ⟨r, l, rfl⟩ := List.exists_cons_of_ne_nil h
  simp only [groupEach, hs]

theorem groupEach_honest (judge : State → Rail → Verdict) (act : Rail → Delta → Delta) (tag mask : BitVec 4) (s : State) :
    HonestRails s (groupEach judge act tag mask s) := by
  by_cases hs : s.selected tag mask = []
  · rw [groupEach_of_empty judge act hs]
    exact .of_kept (fun _ => rfl)
  · rw [groupEach_of_selected judge act rfl hs]
    have verdict := groupVerdict_cases ((s.selected tag mask).map (fun r => (r, judge s r)))
    refine ⟨fun h1 h2 => ?_, fun h => ?_⟩
    · obtain ⟨none, -⟩ := (verdict.resolve_left h1).resolve_left h2
      have sel_none : (s.selected tag mask).filter (fun r => (judge s r).code == .accepted) = [] := by
        simpa [List.filter_map, Function.comp_def] using none
      simp only [sel_none, List.foldl_nil]
    · simp only at h
      rw [h] at verdict
      rcases verdict with h | h | ⟨-, h⟩ <;> cases h

theorem groupLower_honest (tag mask : BitVec 4) (s : State) : HonestRails s (groupLower tag mask s) := by
  unfold groupLower
  split
  · exact .of_kept (fun _ => rfl)
  · split
    · exact .of_kept (fun h => by cases h)
    · split
      · exact .of_kept (fun _ => rfl)
      · exact ⟨fun h => absurd rfl h, fun h => by cases h⟩

theorem groupCommandOf_honest {run : BitVec 4 → BitVec 4 → State → Verdict × Delta} {s : State} (h : ∀ t m, HonestRails s (run t m s)) (a b : Byte) :
    HonestRails s (groupCommandOf run a b s) := by
  unfold groupCommandOf
  split
  · exact .of_kept (fun _ => rfl)
  · exact h _ _

theorem hostWriteRail_honest (s : State) : Honest s (hostWriteRail s) := by
  unfold hostWriteRail
  split
  · exact .of_plain s _
  · rename_i r _
    refine ⟨fun h _ => if_neg h, ?_⟩
    show (judgeWrite s r).code = .already → (judgeWrite s r).detail = 0
    unfold judgeWrite
    split
    · intro h; cases h
    · split
      · intro h; cases h
      · split <;> (intro h; cases h)

theorem hostDefine_honest (s : State) : Honest s (hostDefine s) := by
  unfold hostDefine
  split
  · split
    · exact .of_plain s _
    · unfold judgeDefine
      split
      · exact .of_not_already (by simp)
      · split
        · exact .of_not_already (by simp)
        · exact .of_accepted rfl
  · exact .of_plain s _

theorem hostCommit_honest (s : State) : Honest s (hostCommit s) := by
  unfold hostCommit
  split
  · exact .of_plain s _
  · split
    · exact .of_not_already (by simp)
    · split
      · exact .of_not_already (by simp)
      · exact .of_accepted rfl

theorem hostErase_honest (s : State) : Honest s (hostErase s) := by
  unfold hostErase
  split
  · exact .of_plain s _
  · split
    · exact .of_not_already (by simp)
    · split
      · exact .of_plain s _
      · exact .of_accepted rfl

theorem hostRun_honest (s : State) : Honest s (hostRun s) := by
  unfold hostRun
  split
  · exact .of_plain s _
  · by_cases hk : s.pins.kill = true
    · rw [if_pos hk]; exact .of_plain s _
    · rw [if_neg hk]
      split
      · exact .of_plain s _
      · split
        · exact .of_not_already (by simp)
        · split
          · exact .of_not_already (by simp)
          · exact .of_accepted rfl

theorem hostCancel_honest (s : State) : Honest s (hostCancel s) := by
  unfold hostCancel
  split
  · exact .of_plain s _
  · split
    · exact .of_plain s _
    · exact .of_accepted rfl

theorem hostRelease_honest (s : State) : Honest s (hostRelease s) := by
  unfold hostRelease
  split
  · split
    · exact .of_accepted rfl
    · exact .of_plain s _
  · exact .of_plain s _

theorem hostAbort_honest (s : State) : Honest s (hostAbort s) := by
  unfold hostAbort
  split
  · exact .of_accepted rfl
  · exact .of_plain s _

theorem hostLoadRail_honest (s : State) : Honest s (hostLoadRail s) := by
  unfold hostLoadRail
  split
  · exact .of_plain s _
  · exact .of_accepted rfl

theorem hostLogPop_honest (s : State) : Honest s (hostLogPop s) := by
  unfold hostLogPop
  split
  · exact .of_plain s _
  · exact .of_accepted rfl

theorem hostShedAck_honest (s : State) : Honest s (hostShedAck s) := by
  unfold hostShedAck
  split_ifs
  · exact .of_plain s _
  · exact .of_not_already (by simp)
  · split
    · exact .of_not_already (by simp)
    · exact .of_accepted rfl

theorem ownerOf_honest (c : Command) (s : State) : Honest s (ownerOf c s) := by
  cases c with
  | raise => exact (railCommandOf_honest doRaise judgeRaise_plainAlready s.bus.arg0 s).ownRails
  | lower => exact (railCommandOf_honest doLower judgeLower_plainAlready s.bus.arg0 s).ownRails
  | clear => exact (railCommandOf_honest doClear judgeClear_plainAlready s.bus.arg0 s).ownRails
  | raiseGroup => exact (groupCommandOf_honest (fun t m => groupEach_honest judgeRaise doRaise t m s) s.bus.arg0 s.bus.arg1).ownRails
  | lowerGroup => exact (groupCommandOf_honest (fun t m => groupLower_honest t m s) s.bus.arg0 s.bus.arg1).ownRails
  | clearGroup => exact (groupCommandOf_honest (fun t m => groupEach_honest judgeClear doClear t m s) s.bus.arg0 s.bus.arg1).ownRails
  | loadRail => exact hostLoadRail_honest s
  | writeRail => exact hostWriteRail_honest s
  | define => exact hostDefine_honest s
  | commit => exact hostCommit_honest s
  | erase => exact hostErase_honest s
  | run => exact hostRun_honest s
  | cancel => exact hostCancel_honest s
  | release => exact hostRelease_honest s
  | abort => exact hostAbort_honest s
  | logPop => exact hostLogPop_honest s
  | shedAck => exact hostShedAck_honest s
  | engineReset => exact .of_accepted rfl

theorem Result.isRefusal_iff (k : Result) : k.isRefusal = true ↔ k ≠ .accepted ∧ k ≠ .already := by
  cases k <;> decide

theorem Result.code_eq_two (k : Result) : k.code = 0x02 ↔ k = .already := by
  cases k <;> decide

theorem answer_bus (v : Verdict) (s : State) : (answer v s).bus.res = v.code.code ∧ (answer v s).bus.rdet = v.detail := by
  unfold answer
  dsimp only
  split <;> exact ⟨rfl, rfl⟩

/-- Settles O18: outside ACCEPTED and PARTIAL the owner has left the part as it was, so what is left is the answer. -/
theorem refusedCommandChangesNothing : Obligations.RefusedCommandChangesNothing := by
  refine ⟨fun s c hr t h h1 h3 => ?_, fun s code hr hw => ?_⟩
  · rw [exec_rowOfCode, writeCmd, commandOf_code] at h
    simp only [hostCommand_eq_answer hr] at h
    injection h with h
    have owner := ownerOf_honest c (setCmd c.code s)
    generalize ownerOf c (setCmd c.code s) = x at h owner
    obtain ⟨v, s1⟩ := x
    obtain ⟨hres, hdet⟩ := answer_bus v s1
    rw [h] at hres hdet
    have hacc : v.code ≠ .accepted := fun hv => h1 (by rw [hres, hv]; rfl)
    have hpart : v.code ≠ .partialResult := fun hv => h3 (by rw [hres, hv]; rfl)
    obtain rfl : s1 = setCmd c.code s := owner.kept hacc hpart
    rw [hres, hdet, ← h]
    by_cases hal : v.code = .already
    · have hd : v.detail = 0 := owner.already hal
      simp only [answer, hal, hd, Result.isRefusal]
      rfl
    · have refusal : v.code.isRefusal = true := v.code.isRefusal_iff.mpr ⟨hacc, hal⟩
      rw [if_neg (fun h => hal (v.code.code_eq_two.mp h))]
      simp only [answer, refusal, if_true]
      rfl
  · have none : commandOf code = none := (Laws.WellFormed.code_none code).mpr (by simpa [Instr.wf] using hw)
    show Host.Outcome.next (writeCmd code s) = _
    rw [writeCmd, none]
    exact congrArg Host.Outcome.next (hostCommand_refused hr rfl rfl)

end Sys2Proof.Machine
end

section
/-! PROOFS. SHED_ACK (R170), the flags, the rail change set and the configuration (R130, R162 to R167), the table port (R179 to R182), and the views and
snapshots (R157, R175, R184). -/

namespace Sys2Proof.Machine

/-! ### SHED_ACK -/

theorem exec_shedAck (s : State) : exec .shedAck s = .next (hostCommand 0x21 hostShedAck s) := by
  rfl

theorem shedBlocker_eq_some {s : State} {r : Rail} (hm : (s.rail r).cfg.shedMember = true) (hc : (s.rail r).state.isCut)
    (hl : ∀ x : Rail, x < r → (s.rail x).cfg.shedMember = true → (s.rail x).state ≠ .faulted ∧ (s.rail x).state ≠ .locked) :
    s.shedBlocker = some r := by
  refine lowestRail_eq_some.mpr ⟨?_, fun x hx => ?_⟩
  · rcases hc with h | h <;> simp [hm, h]
  · have := hl x hx
    cases hmx : (s.rail x).cfg.shedMember with
    | false => simp
    | true => simpa [hmx] using this hmx

theorem shedBlocker_eq_none {s : State}
    (h : ∀ x : Rail, (s.rail x).cfg.shedMember = true → (s.rail x).state ≠ .faulted ∧ (s.rail x).state ≠ .locked) : s.shedBlocker = none := by
  refine lowestRail_eq_none.mpr fun x => ?_
  cases hmx : (s.rail x).cfg.shedMember with
  | false => simp
  | true => simpa [hmx] using h x hmx

/-- Settles O40: R170's checks in order, the blocker being the lowest-numbered cut shed member. -/
theorem shedAckClearsLatch : Obligations.ShedAckClearsLatch := by
  intro s hr
  have ack {v : Verdict} {t : State} (ho : hostShedAck (setCmd 0x21 s) = (v, t)) (hv : v.code.isRefusal = false) :
      exec .shedAck s = .next (t.window t.bus.cmd v.code.code v.detail) := exec_done (exec_shedAck s) hr ho hv
  have refused {v : Verdict} (ho : hostShedAck (setCmd 0x21 s) = (v, setCmd 0x21 s)) (hv : v.code.isRefusal = true) :
      exec .shedAck s = .next (s.refusedWith 0x21 v.code.code v.detail) := exec_refused (exec_shedAck s) hr ho hv
  refine ⟨fun h => ?clear, fun h hk => ?killed, fun h hk => ⟨fun r hm hc hl => ?blocked, fun hn => ?acked⟩⟩
  case clear =>
    have owner : hostShedAck (setCmd 0x21 s) = (.plain .already, setCmd 0x21 s) := if_pos (by simpa [setCmd] using h)
    exact (ack owner rfl :)
  all_goals have shed : ¬ (!(setCmd 0x21 s).notify.shed) = true := by simpa [setCmd] using h
  case killed =>
    have owner : hostShedAck (setCmd 0x21 s) = ({ code := .shedActive, detail := 16 }, setCmd 0x21 s) :=
      (if_neg shed).trans (if_pos hk)
    exact (refused owner rfl :)
  all_goals have up : ¬ (setCmd 0x21 s).pins.kill = true := by simpa [setCmd] using hk
  case blocked =>
    have blocker : (setCmd 0x21 s).shedBlocker = some r := shedBlocker_eq_some hm hc hl
    have owner : hostShedAck (setCmd 0x21 s) = ({ code := .shedActive, detail := railByte r }, setCmd 0x21 s) := by
      rw [hostShedAck, if_neg shed, if_neg up, blocker]
    exact (refused owner rfl :)
  case acked =>
    have blocker : (setCmd 0x21 s).shedBlocker = none := shedBlocker_eq_none hn
    have owner : hostShedAck (setCmd 0x21 s)
        = (.plain .accepted, (setCmd 0x21 s).setNotify { (setCmd 0x21 s).notify with shed := false }) := by
      rw [hostShedAck, if_neg shed, if_neg up, blocker]
    exact (ack owner rfl :)

/-! ### Flags, change set and configuration -/

theorem busWrite_taken {s : State} (f : State → State) (hr : s.pins.inReset = false) : busWrite f s = f s := if_neg (by simp [hr])

/-- Only the RAIL flag is a view (R161, R166). -/
theorem evt_getLsbD (n : Notify) (i : Nat) : n.evt.getLsbD i = (n.flags.getLsbD i || (decide (i = 1) && n.changed != 0)) := by
  unfold Notify.evt
  by_cases h : n.changed = 0#16
  · simp [h]
  · have view : (if n.changed = 0 then 0 else 0x02 : Byte) = BitVec.twoPow 8 1 := if_neg h
    rw [BitVec.getLsbD_or, view, BitVec.getLsbD_twoPow]
    simp [bne_iff_ne.mpr h, eq_comm]

theorem railsWritten_has (upper : Bool) (v : Byte) (r : Rail) :
    RailSet.has (railsWritten upper v) r = (decide (8 ≤ r.val) == upper && v.getLsbD (r.val % 8)) := by
  have hr := r.isLt
  cases upper with
  | true =>
    simp only [RailSet.has, railsWritten, if_true, BitVec.getLsbD_shiftLeft, BitVec.getLsbD_setWidth]
    by_cases h : 8 ≤ r.val
    · have hm : r.val % 8 = r.val - 8 := by omega
      have h16 : r.val - 8 < 16 := by omega
      simp [h, hr, hm, h16, Nat.not_lt.mpr h]
    · simp [h, Nat.lt_of_not_le h]
  | false =>
    simp only [RailSet.has, railsWritten]
    by_cases h : 8 ≤ r.val
    · simp [h]
    · have hm : r.val % 8 = r.val := by omega
      simp [h, hr, hm]

theorem planOf_low_digit (v : Byte) (p : PlanNo) : planOf (v &&& 0x0F) = some p ↔ v.toNat % 16 = p.val := by
  have low : (v &&& 0x0F).toNat = v.toNat % 16 := by
    rw [BitVec.toNat_and]
    exact Nat.and_two_pow_sub_one_eq_mod v.toNat 4
  rw [planOf_eq_some, ← low, ← BitVec.toNat_inj, toNat_byte_planNo]

/-- Settles O41: each write updates its field alone, and INT# or FLT# is judged on it. -/
theorem flagAndConfigWrites : Obligations.FlagAndConfigWrites := by
  refine ⟨fun s v hr hf => ?evt, fun s upper v hr => ?rchg, fun s v hr => ?ecfg⟩
  case evt =>
    refine ⟨writeEvt v s, congrArg Host.Outcome.next (busWrite_taken (writeEvt v) hr), judged_intLaw s _, rfl, ?_, fun i hi h1 => ?_⟩
    · have cleared : (s.notify.flags &&& ~~~v).getLsbD 1 = false := by rw [BitVec.getLsbD_and, hf, Bool.false_and]
      rw [evt_getLsbD, evt_getLsbD, hf]
      exact congrArg (fun b => b || (decide (1 = 1) && s.notify.changed != 0)) cleared
    · rw [evt_getLsbD, evt_getLsbD]
      simp [writeEvt, Notify.judge, h1, hi]
  case rchg =>
    refine ⟨writeRchg upper v s, congrArg Host.Outcome.next (busWrite_taken (writeRchg upper v) hr), judged_intLaw s _, rfl, fun r => ?_⟩
    rw [← railsWritten_has upper v r]
    simp [writeRchg, Notify.judge, RailSet.has]
  case ecfg =>
    exact ⟨writeEcfg v s, congrArg Host.Outcome.next (busWrite_taken (writeEcfg v) hr), recomputeFlt_fltLaw _, rfl, fun p => planOf_low_digit v p⟩

/-- Settles O42: the write replaces the enables and INT# is judged; EVT is a view of the flags. -/
theorem evenWriteReplacesEnables : Obligations.EvenWriteReplacesEnables := by
  intro s v hr
  refine ⟨writeEven v s, congrArg Host.Outcome.next (busWrite_taken (writeEven v) hr), judged_intLaw s _, rfl, ?_, ?_⟩
  · exact (if_neg (by rw [show (writeEven v s).pins = s.pins from rfl, hr]; simp) : readRegister (writeEven v s) 0x03 = _)
  · rfl

/-! ### The table port -/

theorem tableOf_iff (b : Byte) (t : Table) : tableOf b = some t ↔ b.toNat =
    (match t with
      | .railCfg => 1
      | .staging => 2
      | .railStatus => 3
      | .planHdr => 4
      | .planSteps => 5
      | .log => 6
      | .queue => 7
      | .lastRun => 8) := by
  unfold tableOf
  split <;> cases t <;> simp_all

theorem tableOf_eq_none (b : Byte) : tableOf b = none ↔ b.toNat = 0 ∨ 8 < b.toNat := by
  unfold tableOf
  split <;> simp_all
  omega

/-- The tables that are read from a copy, by their numbers (R182). -/
theorem copied_iff {b : Byte} {t : Table} (h : tableOf b = some t) : t.copied = true ↔ b.toNat ∈ [3, 6, 7, 8] := by
  rw [(tableOf_iff b t).mp h]
  cases t <;> decide

/-- What the copy holds of each copied table (R113, R134, R153, R180, R182, R191). -/
theorem recordBytes_copyNamed {s : State} {tsel : Byte} {t : Table} (h : tableOf tsel = some t) (tidx : Byte) :
    s.copyNamed tsel tidx (recordBytes s t tidx) := by
  have named {u : Table} (hu : tableOf tsel = some u) : t = u := Option.some.inj (h.symm.trans hu)
  refine ⟨fun h3 => ?status, fun h6 => ?log, fun h7 => ?queue, fun h8 => ?lastRun⟩
  case status =>
    obtain rfl := named ((tableOf_iff tsel .railStatus).mpr h3)
    refine ⟨fun r hr => by simp [recordBytes, hr], fun hi i _ => by simp [recordBytes, railOf_eq_none.mpr hi]⟩
  case log =>
    obtain rfl := named ((tableOf_iff tsel .log).mpr h6)
    refine ⟨fun x hx => by simp [recordBytes, logEntryBytes, hx], fun hl => ?_⟩
    have none : s.log.records[tidx.toNat]? = none := List.getElem?_eq_none hl
    simp [recordBytes, logEntryBytes, none, absentLogBytes]
  case queue =>
    obtain rfl := named ((tableOf_iff tsel .queue).mpr h7)
    refine ⟨fun h4 => ⟨fun e he => ?_, fun hl => ?_⟩, fun h4 => ⟨fun q hq => ?_, fun hq => ?_⟩, fun h4 => ?_⟩
    · simp [recordBytes, queuePlaceBytes, h4.ne, h4, he]
    · have none : s.requests.queue[tidx.toNat]? = none := List.getElem?_eq_none hl
      simp [recordBytes, queuePlaceBytes, h4.ne, h4, none, absentEntryBytes]
    · simp [recordBytes, queuePlaceBytes, h4, hq]
    · simp [recordBytes, queuePlaceBytes, h4, hq, absentEntryBytes]
    · simp [recordBytes, queuePlaceBytes, h4.ne', Nat.not_lt.mpr h4.le, absentEntryBytes]
  case lastRun =>
    obtain rfl := named ((tableOf_iff tsel .lastRun).mpr h8)
    exact ⟨fun x hx => by simp [recordBytes, lastRunBytes, hx], fun hx => by simp [recordBytes, lastRunBytes, hx, absentReportBytes]⟩

theorem copyNamed_of_not_copied {s : State} {tsel : Byte} (tidx : Byte) (copy : List Byte) (h : tsel.toNat ∉ [3, 6, 7, 8]) :
    s.copyNamed tsel tidx copy := by
  simp only [List.mem_cons, List.not_mem_nil, or_false, not_or] at h
  obtain ⟨h3, h6, h7, h8⟩ := h
  exact ⟨fun h => absurd h h3, fun h => absurd h h6, fun h => absurd h h7, fun h => absurd h h8⟩

theorem takeCopy_of_not_copied {s : State} (h : s.bus.tsel.toNat ∉ [3, 6, 7, 8]) : takeCopy s = s := by
  unfold takeCopy
  split
  · rfl
  · rename_i t ht
    rw [if_neg (fun hc => h ((copied_iff ht).mp hc))]

theorem takeCopy_of_copied {s : State} {t : Table} (ht : tableOf s.bus.tsel = some t) (hc : t.copied = true) :
    takeCopy s = { s with bus := { s.bus with copy := recordBytes s t s.bus.tidx } } := by
  simp only [takeCopy, ht, hc, if_true]

/-- The copy taken is of the record that TSEL and TIDX name, and nothing else moves (R182). -/
theorem takeCopy_named (s : State) :
    takeCopy s = { s with bus := { s.bus with copy := (takeCopy s).bus.copy } } ∧ s.copyNamed s.bus.tsel s.bus.tidx (takeCopy s).bus.copy
      ∧ (s.bus.tsel.toNat ∉ [3, 6, 7, 8] → (takeCopy s).bus.copy = s.bus.copy) := by
  by_cases hn : s.bus.tsel.toNat ∈ [3, 6, 7, 8]
  · have hsome : ∃ t, tableOf s.bus.tsel = some t := by
      refine Option.ne_none_iff_exists'.mp fun h => ?_
      rw [tableOf_eq_none] at h
      simp only [List.mem_cons, List.not_mem_nil, or_false] at hn
      omega
    obtain ⟨t, ht⟩ := hsome
    rw [takeCopy_of_copied ht ((copied_iff ht).mpr hn)]
    exact ⟨rfl, recordBytes_copyNamed ht _, fun h => absurd hn h⟩
  · rw [takeCopy_of_not_copied hn]
    exact ⟨rfl, copyNamed_of_not_copied _ _ hn, fun _ => rfl⟩

/-- Settles O43: the byte is stored, and the copy is taken of what TSEL and TIDX then name. -/
theorem tableSelectionCopies : Obligations.TableSelectionCopies := by
  intro s v hr
  obtain ⟨htsel, cselNamed, cselKept⟩ := takeCopy_named { s with bus := { s.bus with tsel := v } }
  obtain ⟨htidx, cidxNamed, cidxKept⟩ := takeCopy_named { s with bus := { s.bus with tidx := v } }
  have tsel : writeTsel v s = { s with bus := { s.bus with tsel := v, copy := (writeTsel v s).bus.copy } } := htsel
  have tidx : writeTidx v s = { s with bus := { s.bus with tidx := v, copy := (writeTidx v s).bus.copy } } := htidx
  refine ⟨writeTsel v s, writeTidx v s, congrArg Host.Outcome.next (busWrite_taken (writeTsel v) hr),
    congrArg Host.Outcome.next (busWrite_taken (writeTidx v) hr), tsel, tidx, fun t ht => ?_⟩
  simp only [List.mem_cons, List.not_mem_nil, or_false] at ht
  rcases ht with rfl | rfl
  · have htsel : (writeTsel v s).bus.tsel = v := by rw [tsel]
    have htidx : (writeTsel v s).bus.tidx = s.bus.tidx := by rw [tsel]
    rw [htsel, htidx]
    exact ⟨cselNamed, cselKept⟩
  · have htsel : (writeTidx v s).bus.tsel = s.bus.tsel := by rw [tidx]
    have htidx : (writeTidx v s).bus.tidx = v := by rw [tidx]
    rw [htsel, htidx]
    exact ⟨cidxNamed, cidxKept⟩

/-- The part just before the byte of a TDATA read is given: at TPTR 0 a fresh copy is taken (R182). -/
def State.tdataReady (s : State) : State := if s.bus.tptr = 0 then takeCopy s else s

theorem tdataReady_eq (s : State) : s.tdataReady = { s with bus := { s.bus with copy := s.tdataReady.bus.copy } } := by
  unfold State.tdataReady
  split
  · obtain ⟨h, -⟩ := takeCopy_named s
    exact h
  · rfl

/-- The byte of a TDATA read, by the selected table. -/
theorem tdataByte_of_table {s : State} {t : Table} (h : tableOf s.bus.tsel = some t) :
    tdataByte s = ((if t.copied then s.bus.copy else recordBytes s t s.bus.tidx)[s.bus.tptr.toNat]?).getD 0 := by
  simp only [tdataByte, h]

/-- Settles O44: the byte is that of the copy or of the live record, which no copy changes. -/
theorem tdataReadStepsThroughRecord : Obligations.TdataReadStepsThroughRecord := by
  intro s hr
  have ready := tdataReady_eq s
  have byte_ : ∀ t : Table, tableOf s.bus.tsel = some t →
      tdataByte s.tdataReady = ((if t.copied then s.tdataReady.bus.copy else recordBytes s t s.bus.tidx)[s.bus.tptr.toNat]?).getD 0 := by
    intro t ht
    have live : recordBytes s.tdataReady t s.bus.tidx = recordBytes s t s.bus.tidx := by rw [ready]; rfl
    have hsel : s.tdataReady.bus.tsel = s.bus.tsel := by rw [ready]
    have hidx : s.tdataReady.bus.tidx = s.bus.tidx := by rw [ready]
    have hptr : s.tdataReady.bus.tptr = s.bus.tptr := by rw [ready]
    rw [tdataByte_of_table (hsel ▸ ht), hidx, hptr, live]
  have live {t : Table} (ht : tableOf s.bus.tsel = some t) (hc : t.copied = false) :
      tdataByte s.tdataReady = ((recordBytes s t s.bus.tidx)[s.bus.tptr.toNat]?).getD 0 := by
    rw [byte_ t ht, hc]
    rfl
  have taken : exec .tdataRead s = .next { advancePointer s.tdataReady with
      bus := { (advancePointer s.tdataReady).bus with lastRead := tdataByte s.tdataReady } } := by
    show Host.Outcome.next (busRead readTdata s) = _
    rw [busRead, if_neg (by simp [hr])]
    rfl
  refine ⟨_, taken, ?_, ?_, fun r h1 hi => ?_, fun h2 => ?_, fun p h4 hi => ?_, fun p h5 hi => ?_, fun hc => ?_, fun hc => ?_, fun h0 => ?_,
    fun h1 hi => ?_, fun h45 hi => ?_, fun hn => ?_⟩
  · rw [ready]; rfl
  · show (advancePointer s.tdataReady).bus.tptr.toNat = _
    rw [advancePointer_tptr, ready]
  · refine (live ((tableOf_iff _ .railCfg).mpr h1) rfl).trans ?_
    simp [recordBytes, hi]
  · refine (live ((tableOf_iff _ .staging).mpr h2) rfl).trans ?_
    simp [recordBytes]
  · refine (live ((tableOf_iff _ .planHdr).mpr h4) rfl).trans ?_
    simp [recordBytes, hi]
  · refine (live ((tableOf_iff _ .planSteps).mpr h5) rfl).trans ?_
    simp [recordBytes, hi, Plan.slotByte]
  · obtain ⟨t, ht⟩ : ∃ t, tableOf s.bus.tsel = some t := by
      refine Option.ne_none_iff_exists'.mp fun h => ?_
      rw [tableOf_eq_none] at h
      simp only [List.mem_cons, List.not_mem_nil, or_false] at hc
      omega
    refine (byte_ t ht).trans ?_
    rw [(copied_iff ht).mpr hc]
    rfl
  · show s.tdataReady.bus.copy = s.bus.copy
    unfold State.tdataReady
    split
    · rename_i h0
      obtain ⟨-, -, kept⟩ := takeCopy_named s
      exact kept (hc.resolve_left (fun h => h h0))
    · rfl
  · obtain ⟨-, named, -⟩ := takeCopy_named s
    show s.copyNamed _ _ s.tdataReady.bus.copy
    rw [State.tdataReady, if_pos h0]
    exact named
  · refine (live ((tableOf_iff _ .railCfg).mpr h1) rfl).trans ?_
    simp [recordBytes, railOf_eq_none.mpr hi]
  · simp only [List.mem_cons, List.not_mem_nil, or_false] at h45
    rcases h45 with h | h
    · refine (live ((tableOf_iff _ .planHdr).mpr h) rfl).trans ?_
      simp [recordBytes, planOf_eq_none.mpr hi]
    · refine (live ((tableOf_iff _ .planSteps).mpr h) rfl).trans ?_
      simp [recordBytes, planOf_eq_none.mpr hi]
  · have none : tableOf s.bus.tsel = none := (tableOf_eq_none _).mpr (hn.imp_left fun h => by rw [h]; rfl)
    have hsel : s.tdataReady.bus.tsel = s.bus.tsel := by rw [ready]
    show tdataByte s.tdataReady = 0
    simp only [tdataByte, hsel, none]

/-! ### Views and snapshots -/

theorem readRegister_outside {s : State} (hr : s.pins.inReset = false) (addr : Addr) : readRegister s addr = windowByte s addr :=
  if_neg (by simp [hr])

theorem toNat_byte {n : Nat} (h : n < 256) : (byte n).toNat = n := Nat.mod_eq_of_lt h

theorem busRead_taken {s : State} (f : State → Byte × State) (hr : s.pins.inReset = false) :
    busRead f s = { (f s).2 with bus := { (f s).2.bus with lastRead := (f s).1 } } := if_neg (by simp [hr])

/-- A bit of the three higher bytes of the uptime counter, which the snapshot holds (R157). -/
theorem uptimeLatch_bit (x : Uptime) {i j : Nat} (hi : i < 32) (h : 8 + j = i) : (decide (j < 24) && x.getLsbD (8 + j)) = x[i] := by
  subst h
  rw [decide_eq_true (by omega), Bool.true_and, BitVec.getLsbD_eq_getElem hi]

/-- The four bytes of the uptime counter, high byte first (R157). -/
theorem uptime_bytes (x : Uptime) :
    (x.extractLsb' 8 24).extractLsb' 16 8 ++ (x.extractLsb' 8 24).extractLsb' 8 8 ++ (x.extractLsb' 8 24).extractLsb' 0 8 ++ byteOf x 0 = x := by
  unfold byteOf
  ext i hi
  simp only [BitVec.getElem_append, BitVec.getElem_extractLsb', BitVec.getLsbD_extractLsb']
  split_ifs
  · simp [BitVec.getLsbD_eq_getElem hi]
  · exact uptimeLatch_bit x hi (by omega)
  · exact uptimeLatch_bit x hi (by omega)
  · exact uptimeLatch_bit x hi (by omega)

/-- ENGST's low byte as a number: the state's code, the run bit and the plan (R175). -/
theorem engst_toNat (code p : Nat) (hc : code < 4) (hp : p < 8) : (byte code ||| 0x08 ||| byte (16 * p)).toNat = code + 8 + 16 * p := by
  interval_cases code <;> interval_cases p <;> rfl

theorem engstLow_toNat {s : State} {run : Run} (h : s.engine.run = some run) :
    s.engstLow.toNat =
      (match run.phase with
        | .quiet => 1
        | .waiting => 2
        | .held => 3) + 8 + 16 * run.plan.val := by
  simp only [State.engstLow, State.engineCode, h]
  cases run.phase with
  | quiet => exact engst_toNat 1 _ (by decide) run.plan.isLt
  | waiting => exact engst_toNat 2 _ (by decide) run.plan.isLt
  | held => exact engst_toNat 3 _ (by decide) run.plan.isLt

theorem bitAt_getLsbD (b : Bool) (k i : Nat) : (bitAt b k).getLsbD i = (b && decide (k < 8) && decide (k = i)) := by
  cases b with
  | false => simp [bitAt]
  | true => simp [bitAt, BitVec.getLsbD_twoPow]

/-- The levels that PINST shows, bit by bit (R184). -/
theorem pinst_getLsbD (s : State) (i : Nat) : i < 8 → s.pinst.getLsbD i =
    (match i with
      | 0 => s.pins.kill
      | 1 => s.pins.xf0
      | 2 => s.pins.xf1
      | 3 => s.pins.pwrreq
      | 4 => s.log.flt
      | 5 => s.notify.shed
      | _ => false) := by
  intro hi
  simp only [State.pinst, BitVec.getLsbD_or, bitAt_getLsbD]
  interval_cases i <;> simp

/-- The byte of a read that has a row is the content of its location (R174, R180). -/
theorem driven_of_read {s t : State} {addr : Addr} {i : Instr} (hr : s.pins.inReset = false) (h : rowOfRead addr = some i)
    (he : exec i s = .next t) : t.bus.lastRead = windowByte s addr := by
  have read (f : State → Byte × State) (hf : exec i s = .next (busRead f s)) : t.bus.lastRead = (f s).1 := by
    rw [hf, busRead_taken f hr] at he
    injection he with he
    rw [← he]
  rcases rowOfRead_cases h with ⟨ha, rfl⟩ | ⟨ha, rfl⟩ | ⟨ha, rfl⟩
  · rw [read readEngstLow rfl]; simp only [windowByte, ha]; rfl
  · rw [read readTdata rfl]; simp only [windowByte, ha]
  · rw [read readUpt0 rfl]; simp only [windowByte, ha]; rfl

/-- A location without a write of its own ignores it but for the operand registers and TPTR (R174, R176, R179). -/
theorem writeLocation_plain {s : State} (addr : Addr) (v : Byte) (hw : (Instr.registerWrite addr v).wf = true)
    (ha : addr.toNat ∉ [0x0C, 0x0D, 0x0E, 0x0F, 0x1A]) : writeLocation addr v s = s := by
  have hw : [2, 3, 4, 5, 8, 0x15, 0x18, 0x19, 0x1B].contains addr.toNat = false := by
    rw [← Laws.WellFormed.own_address]
    simpa [Instr.wf] using hw
  unfold writeLocation
  split
  case h_15 => rfl
  all_goals
    rename_i h
    rw [h] at hw ha
    simp at hw ha

/-- Settles O46: each view is the content of its location, each snapshot is taken by the read of its row, and each write is that of its location. -/
theorem snapshotsAndPlainWrites : Obligations.SnapshotsAndPlainWrites := by
  intro s hr
  have read (t : State) (ht : t.pins = s.pins) (addr : Addr) : readRegister t addr = windowByte t addr :=
    readRegister_outside (by rw [ht]; exact hr) addr
  refine ⟨?upt, ?engst, ?views, ?drive, fun v => ?args, fun addr v hw ha => ?plain, fun addr v => ?row⟩
  case upt =>
    obtain ⟨t, ht⟩ : ∃ t, busRead readUpt0 s = t := ⟨_, rfl⟩
    refine ⟨t, congrArg Host.Outcome.next ht, ?_⟩
    rw [busRead_taken readUpt0 hr] at ht
    have pins : t.pins = s.pins := by rw [← ht]; rfl
    rw [read t pins, read t pins, read t pins, ← ht]
    exact ⟨rfl, uptime_bytes s.log.uptime⟩
  case engst =>
    obtain ⟨t, ht⟩ : ∃ t, busRead readEngstLow s = t := ⟨_, rfl⟩
    refine ⟨t, congrArg Host.Outcome.next ht, ?_⟩
    rw [busRead_taken readEngstLow hr] at ht
    have pins : t.pins = s.pins := by rw [← ht]; rfl
    rw [read t pins, read s rfl, ← ht]
    refine ⟨rfl, fun hn => ?_, fun run hrun => ?_⟩
    · exact ⟨show s.stepShown = 0 by simp [State.stepShown, hn], show s.engstLow = 0 by simp [State.engstLow, hn]⟩
    · refine ⟨?_, engstLow_toNat hrun⟩
      show s.stepShown.toNat = _
      simp only [State.stepShown, hrun]
      split
      · rfl
      · exact toNat_byte (run.step.isLt.trans (by decide))
  case views =>
    rw [read s rfl, read s rfl]
    refine ⟨fun h => toNat_byte (by omega), fun h => toNat_byte (by omega), fun i hi => ?_⟩
    rw [read s rfl]
    exact pinst_getLsbD s i hi
  case drive =>
    refine ⟨fun cs rd wr addr h => ?_, fun addr => rfl, fun addr i h t he => ?_⟩
    · unfold busDrive
      split
      · cases h
      · rfl
    · rw [driven_of_read hr h he, ← read s rfl]
      rfl
  case args =>
    have arg (i : Fin 4) := busWrite_taken (writeArg i v) hr
    exact ⟨congrArg Host.Outcome.next (arg 0), congrArg Host.Outcome.next (arg 1), congrArg Host.Outcome.next (arg 2),
      congrArg Host.Outcome.next (arg 3), congrArg Host.Outcome.next (busWrite_taken (writeTptr v) hr)⟩
  case plain => exact congrArg Host.Outcome.next (writeLocation_plain addr v hw ha)
  case row => exact exec_rowOfWrite addr v s

end Sys2Proof.Machine
end

section
/-! PROOFS. What an event hands on when no step waits on the rails that moved: the rails join the change set and a QUIET engine starts its timer afresh
(`finish_told`). From it the edges of KILL#, of the external inputs and of PWRREQ# (R39, R72, R73, R131, R132), and the resets (R2, R172). -/

namespace Sys2Proof.Machine

/-! ### The change set -/

theorem RailSet.ext {x y : RailSet} (h : ∀ r, RailSet.has x r = RailSet.has y r) : x = y :=
  BitVec.eq_of_getLsbD_eq (fun i hi => h ⟨i, hi⟩)

theorem ofList_rails (x : RailSet) : RailSet.ofList (RailSet.rails x) = x := by
  refine RailSet.ext fun r => ?_
  rw [has_ofList, Bool.eq_iff_iff]
  simp [mem_rails]

theorem ofList_eq_zero {l : List Rail} : RailSet.ofList l = 0 ↔ l = [] := by
  refine ⟨fun h => List.eq_nil_iff_forall_not_mem.mpr fun r hr => ?_, fun h => by rw [h]; rfl⟩
  have has : RailSet.has (RailSet.ofList l) r = true := by rw [has_ofList]; simpa using hr
  rw [h] at has
  simp at has

theorem rails_eq_nil {x : RailSet} : RailSet.rails x = [] ↔ x = 0 := by
  rw [← ofList_eq_zero, ofList_rails]

/-- Rails that join the change set one after another join it together. -/
theorem foldl_addChanged (l : List Rail) (s : State) : l.foldl (fun t r => addChanged r t) s = s.joined (RailSet.ofList l) := by
  induction l using List.reverseRecOn with
  | nil => rfl
  | append_singleton l a ih =>
    have added : RailSet.ofList (l ++ [a]) ≠ 0 := fun h => by simpa using ofList_eq_zero.mp h
    rw [List.foldl_append, ih, List.foldl_cons, List.foldl_nil, State.joined, State.joined, if_neg added, ofList_append_singleton]
    by_cases h : RailSet.ofList l = 0
    · rw [if_pos h, h]
      simp [addChanged, RailSet.add]
    · rw [if_neg h]
      simp only [addChanged, State.setNotify, Notify.judge, Notify.evt, RailSet.add, BitVec.or_assoc]
      rfl

theorem joined_zero (s : State) : s.joined 0 = s := if_pos rfl

theorem told_zero (s : State) : s.told 0 = s := if_pos rfl

/-! ### The engine told of changes that no step waits on -/

theorem quietAfresh_run (s : State) : s.quietAfresh.engine.run = s.engine.run := by
  unfold State.quietAfresh
  split
  · split <;> rfl
  · rfl

theorem quietAfresh_idle {s : State} (h : s.engine.run = none) : s.quietAfresh = s := by
  simp [State.quietAfresh, h]

theorem quietAfresh_twice (s : State) : s.quietAfresh.quietAfresh = s.quietAfresh := by
  cases h : s.engine.run with
  | none => rw [quietAfresh_idle h, quietAfresh_idle h]
  | some run =>
    by_cases hq : run.phase = .quiet
    · simp only [State.quietAfresh, h, hq, if_true, setEngineTimers_engine]
      rfl
    · simp [State.quietAfresh, h, hq]

theorem addChanged_quietAfresh (r : Rail) (s : State) : addChanged r s.quietAfresh = (addChanged r s).quietAfresh := by
  simp only [State.quietAfresh, addChanged_engine]
  split
  · split <;> rfl
  · rfl

theorem foldl_addChanged_quietAfresh (l : List Rail) (s : State) :
    l.foldl (fun t r => addChanged r t) s.quietAfresh = (l.foldl (fun t r => addChanged r t) s).quietAfresh := by
  induction l generalizing s with
  | nil => rfl
  | cons r l ih => rw [List.foldl_cons, addChanged_quietAfresh, ih]; rfl

theorem unawaited_congr {s t : State} (hr : t.engine.run = s.engine.run) (hs : t.store = s.store) (r : Rail) :
    t.unawaited r = s.unawaited r := by
  simp only [State.unawaited, State.stepRec, State.plan, hr, hs]

theorem quietAfresh_store (s : State) : s.quietAfresh.store = s.store := by
  unfold State.quietAfresh
  split
  · split <;> rfl
  · rfl

/-- A change of a rail that no step waits on is seen in QUIET alone (R97, R99). -/
theorem engineSees_of_unawaited {r : Rail} {w : Work} (h : w.s.unawaited r = true) : engineSees r w = w.on State.quietAfresh := by
  unfold engineSees
  split
  · rename_i hn
    simp only [Work.on, quietAfresh_idle hn]
  · rename_i run hrun
    split
    · rename_i hp
      simp [Work.on, State.quietAfresh, hrun, hp]
    · rename_i hp
      simp [Work.on, State.quietAfresh, hrun, hp]
    · rename_i hp
      have same : w.on State.quietAfresh = w := by simp [Work.on, State.quietAfresh, hrun, hp]
      simp only [State.unawaited, hrun, hp] at h
      rw [same]
      split
      · rename_i kind hk
        rw [if_neg]
        rintro ⟨ha, hb⟩
        simp [hk, ha, hb] at h
      · rfl

/-- The changes of an event handed on when no step waits on the rails that moved (R10, R97, R166). -/
theorem handOn_of_unawaited {d : Delta} (h : ∀ r, RailSet.has d.changed r = true → d.s.unawaited r = true) :
    handOn d = { s := d.s.told d.changed, reqs := d.reqs } := by
  have each (l : List Rail) (w : Work) (hl : ∀ r ∈ l, w.s.unawaited r = true) (hn : l ≠ []) :
      l.foldl (fun w r => engineSees r (w.on (addChanged r))) w = w.on (fun s => (l.foldl (fun t r => addChanged r t) s).quietAfresh) := by
    induction l generalizing w with
    | nil => exact absurd rfl hn
    | cons r l ih =>
      have first : engineSees r (w.on (addChanged r)) = w.on (fun s => (addChanged r s).quietAfresh) :=
        engineSees_of_unawaited (w := w.on (addChanged r)) ((unawaited_congr rfl rfl r).trans (hl r (by simp)))
      rw [List.foldl_cons, first]
      by_cases hnil : l = []
      · subst hnil; rfl
      · rw [ih _ (fun x hx => ?_) hnil]
        · simp only [Work.on, foldl_addChanged_quietAfresh, quietAfresh_twice, List.foldl_cons]
        · refine (unawaited_congr ?_ ?_ x).trans (hl x (by simp [hx]))
          · exact quietAfresh_run _
          · exact quietAfresh_store _
  by_cases hz : d.changed = 0
  · have none : RailSet.rails d.changed = [] := rails_eq_nil.mpr hz
    rw [handOn, none, hz, told_zero]
    rfl
  · have some : RailSet.rails d.changed ≠ [] := fun hn => hz (rails_eq_nil.mp hn)
    rw [handOn, each _ _ (fun r hr => h r ((mem_rails _ r).mp hr)) some]
    simp only [Work.on, foldl_addChanged, ofList_rails, State.told, if_neg hz]

/-- An event that moves rails which no step waits on, and raises no fault-plan request. -/
theorem finish_told {d : Delta} (h : ∀ r, RailSet.has d.changed r = true → d.s.unawaited r = true) (hq : d.reqs = []) :
    finish d = if d.shed then setShed (d.s.told d.changed) else d.s.told d.changed := by
  rw [finish, handOn_of_unawaited h, hq, finishWork_of]

/-- An event that moves no rail, and raises no fault-plan request. -/
theorem finish_unmoved {d : Delta} (hc : d.changed = 0) (hq : d.reqs = []) : finish d = if d.shed then setShed d.s else d.s := by
  rw [finish_told (fun r hr => by simp [hc] at hr) hq, hc, told_zero]

/-! ### A rail event without a cut of its own -/

/-- A rail event without a cut of its own: the rail, its records, and whether it moved. -/
theorem commit_of_uncut {r : Rail} {e : RailStep} {d : Delta} (h : e.ownCut = false) :
    commit r e d = { s := logDecls r e.decls (d.s.setRail r e.rc)
                     changed := if e.moved then RailSet.add d.changed r else d.changed
                     reqs := d.reqs
                     shed := d.shed || (e.entered && e.rc.cfg.shedMember) } := by
  simp [commit, ownRequest, h]

/-- A rail event that neither cuts nor moves its rail: the rail and its records. -/
theorem finish_onRail_unmoved {r : Rail} {f : RailStep → RailStep} {s : State} (hc : (f (.of (s.rail r))).ownCut = false)
    (hm : (f (.of (s.rail r))).moved = false) (he : (f (.of (s.rail r))).entered = false) :
    finish (onRail r f (Delta.of s)) = logDecls r (f (.of (s.rail r))).decls (s.setRail r (f (.of (s.rail r))).rc) := by
  show finish (commit r (f (.of (s.rail r))) (Delta.of s)) = _
  rw [commit_of_uncut hc, hm, he]
  exact finish_unmoved rfl rfl

/-! ### Records and the run side -/

/-- The run side cleared: the engine IDLE with its timers stopped, queue and slot empty (R121, R139). -/
def clearRunSide (s : State) : State := emptyRequests ((goIdle s).setEngineTimers none none none)

/-- A record depends on nothing of the run side but the plan context that is handed to it. -/
theorem clearRunSide_logFault (x : Subject) (c : Option PlanContext) (s : State) :
    clearRunSide (logFault x c s) = logFault x c (clearRunSide s) := by
  unfold logFault
  split
  · rename_i h; exact (if_pos (show _ from h)).symm
  · rename_i h; exact (if_neg (show ¬ _ from h)).symm

/-! ### An assertion edge of KILL# -/

/-- The rails that an assertion edge of KILL# moves. -/
def State.killMoved (s : State) : List Rail := allRails.filter (fun r => (s.rail r).state.active || (s.rail r).state == .faulted)

theorem killed_of_unmoved {now : Uptime} {c : RailChan} (h : (c.state.active || c.state == .faulted) = false) : c.killed now = c := by
  obtain ⟨ha, hf⟩ := Bool.or_eq_false_iff.mp h
  rw [RailChan.killed, if_neg (by simp [ha]), if_neg (by simpa using hf)]

theorem killRails_told (s : State) :
    (killRails s).s = s.mapRails s.killMoved (fun r => (s.rail r).killed s.now) ∧ (killRails s).changed = RailSet.ofList s.killMoved := by
  rw [killRails_eq]
  refine ⟨?_, ?_⟩
  · show s.mapRails allRails (fun r => (railKill s.now (.of (s.rail r))).rc) = _
    simp only [railKill_rc]
    exact (mapRails_filter _ (fun r _ h => killed_of_unmoved h)).symm
  · simp only [quietDelta, railKill_moved]
    rfl

/-- An assertion edge of KILL#, its level taken: the rails that it moves, the run side cleared, and what is told (R72, R73, R121, R139). -/
theorem killEffect_eq (s : State) :
    killEffect s = setFlag .kill (setShed
      ((emptyRequests ((stopRun .killed (s.mapRails s.killMoved (fun r => (s.rail r).killed s.now))).setEngineTimers none none none)).joined
        (RailSet.ofList s.killMoved))) := by
  obtain ⟨hs, hc⟩ := killRails_told s
  rw [killEffect, hs, hc]
  simp only [foldl_addChanged, ofList_rails]

/-- A run that ends KILLED (R112, R121): its report, the FAIL flag, its record, and the engine IDLE. -/
theorem stopRun_killed {s : State} {run : Run} (h : s.engine.run = some run) :
    emptyRequests ((stopRun .killed s).setEngineTimers none none none)
      = logEngine .killed run.role { plan := run.plan, step := if run.phase = .quiet then none else some run.step }
          (setFlag .fail (emptyRequests (s.idleAfter (run.ended .killed)))) := by
  have ended : stopRun .killed s = goIdle (logEngine .killed run.role { plan := run.plan, step := run.stepReached }
      (setFlag .fail ((mapRun (fun x => { x with selection := 0 }) (s.setEngineTimers none none none)).setReport (run.ended .killed)))) := by
    rw [← reportOf_eq_ended]
    simp only [stopRun, h]
    rfl
  rw [ended]
  exact clearRunSide_logFault _ _ _

theorem told_of_idle {s : State} (h : s.engine.run = none) (x : RailSet) : s.told x = s.joined x := by
  unfold State.told
  split
  · rename_i hx; rw [hx, joined_zero]
  · refine quietAfresh_idle ?_
    unfold State.joined
    split <;> exact h

/-- Settles O47: the rails by what KILL# makes of each, the run by the end of a run that is KILLED. -/
theorem killAssertionTakesAllDown : Obligations.KillAssertionTakesAllDown := by
  intro s hr hk moved s1 hmoved hs1
  have edge : exec .killAssertionEdge s = .next (killEffect (s.setKill true)) := by
    show Host.Outcome.next (killAssertion s) = _
    rw [killAssertion, if_neg (by simp [hk]), if_neg (by simp [hr])]
  have rails : (s.setKill true).mapRails (s.setKill true).killMoved (fun r => ((s.setKill true).rail r).killed (s.setKill true).now)
      = (s.mapRails moved (fun r => if (s.rail r).state = .faulted then { s.rail r with state := .locked, retryT := none }
          else (s.rail r).lowered s.now)).setKill true := by
    refine mapRails_eq fun r => ?_
    refine (mapRails_rail s moved _ r).trans ?_
    rw [hmoved]
    show (if r ∈ s.killMoved then _ else _) = if r ∈ s.killMoved then (s.rail r).killed s.now else s.rail r
    split
    · rename_i hm
      have hm : (s.rail r).state.active = true ∨ (s.rail r).state = .faulted := by
        simpa [State.killMoved, mem_allRails] using hm
      by_cases hf : (s.rail r).state = .faulted
      · rw [if_pos hf, RailChan.killed, if_neg (by rw [hf]; decide), if_pos hf]
      · rw [if_neg hf, RailChan.killed, if_pos (hm.resolve_right hf)]
    · rfl
  have changed : (s.setKill true).killMoved = moved := hmoved.symm
  rw [edge, killEffect_eq, rails, changed]
  refine ⟨fun hn => ?_, fun run hrun => ?_⟩
  · rw [stopRun_of_none _ (by exact hn), told_of_idle (by rw [hs1]; exact hn), hs1]
    rfl
  · rw [stopRun_killed (run := run) (by exact hrun), told_of_idle (by rw [logEngine, logFault_engine]; rfl), hs1]
    rfl

end Sys2Proof.Machine
end

section
/-! PROOFS. The resets (R2, R71, R172, R186), the edges of the external inputs that cut no rail (R39), those of PWRREQ# (R131, R132), and ABORT
(R111). What a queue entry's run starts with is told once, in `chooseNext_quiet`. -/

namespace Sys2Proof.Machine

/-! ### Resets -/

/-- What a front end finds at its sense inputs outside the bands is what the levels give (R11, R28, R29). -/
theorem resetRail_found (free : Nat) (r : Rail) (c : RailChan) :
    ∃ z oc, resetRail free r c = RailChan.atReset z oc c.senseMv c.senseMa
      ∧ (outsideBands RailCfg.reset c.senseMv = true → z = zoneOf RailCfg.reset c.senseMv)
      ∧ (withinLimitBand RailCfg.reset c.senseMa = false → oc = overCurrentOf RailCfg.reset c.senseMa) :=
  ⟨_, _, rfl, fun h => if_pos h, fun h => if_neg (by simp [h])⟩

theorem resetBlocks_resetTo (s : State) : s.resetTo (resetBlocks s) Notify.held := by
  refine ⟨fun r => ?_, rfl, rfl, rfl, rfl, rfl, rfl, rfl⟩
  rw [resetBlocks_rail]
  exact resetRail_found _ _ _

/-- KILL# found asserted at the end of a reset finds nothing to take down (R71, R72). -/
theorem endOfReset_of_kill {s : State} (h : s.pins.kill = true) :
    endOfReset s = setFlag .kill (setShed (setFlag .restart (resetBlocks s))) := by
  have none : (setFlag .restart (resetBlocks s)).killMoved = [] := by
    rw [State.killMoved, List.filter_eq_nil_iff]
    intro r _
    show ¬ ((((resetBlocks s).rail r).state.active || ((resetBlocks s).rail r).state == .faulted) = true)
    rw [resetBlocks_state]
    decide
  rcases endOfReset_cases s with ⟨-, hend⟩ | ⟨hk, -⟩
  · rw [hend, killEffect_eq, none, mapRails_nil, stopRun_of_none _ rfl]
    rfl
  · simp [h] at hk

theorem resetTo_setNotify {s t : State} {n : Notify} (m : Notify) (h : s.resetTo t n) : s.resetTo (t.setNotify m) m := by
  obtain ⟨hrails, hstore, hengine, hrequests, hlog, -, hbus, hpending⟩ := h
  exact ⟨hrails, hstore, hengine, hrequests, hlog, rfl, hbus, hpending⟩

/-- RESTART set on a unit held at its reset values (R172). -/
theorem restart_eq (s : State) : setFlag .restart (resetBlocks s) = (resetBlocks s).setNotify Notify.reset :=
  congrArg (State.setNotify _) (show ({ Notify.held with flags := Notify.held.flags ||| BitVec.twoPow 8 EventFlag.restart.position } : Notify).judge
    = Notify.reset by decide)

/-- With KILL# found asserted the SHED latch and the KILL flag stand too (R71, R172). -/
theorem restartKilled_eq (s : State) : setFlag .kill (setShed (setFlag .restart (resetBlocks s)))
    = (resetBlocks s).setNotify { flags := 0x81, enables := 0x01, changed := 0, shed := true, int := true } := by
  rw [restart_eq]
  exact congrArg (State.setNotify (resetBlocks s)) (show ({ Notify.reset with
    shed := true, flags := Notify.reset.flags ||| BitVec.twoPow 8 EventFlag.kill.position } : Notify).judge = _ by decide)

theorem endOfReset_resetTo (s : State) :
    (endOfReset s).pins = s.pins ∧ s.resetTo (endOfReset s)
      (if s.pins.kill then { flags := 0x81, enables := 0x01, changed := 0, shed := true, int := true } else Notify.reset) := by
  cases hk : s.pins.kill with
  | true =>
    rw [endOfReset_of_kill hk, restartKilled_eq, if_pos rfl]
    exact ⟨rfl, resetTo_setNotify _ (resetBlocks_resetTo s)⟩
  | false =>
    have hend : endOfReset s = setFlag .restart (resetBlocks s) := by
      rcases endOfReset_cases s with ⟨h, -⟩ | ⟨-, h⟩
      · simp [hk] at h
      · exact h
    rw [hend, restart_eq, if_neg (by decide)]
    exact ⟨rfl, resetTo_setNotify _ (resetBlocks_resetTo s)⟩

/-- Settles O3: each reset command ends in the reset of every block, or in its end. -/
theorem resetsTakeResetValues : Obligations.ResetsTakeResetValues := by
  refine ⟨fun s hr => ⟨endOfReset s, ?_, endOfReset_resetTo s⟩, fun s hr => ⟨endOfReset (s.setReset false), ?_, endOfReset_resetTo (s.setReset false)⟩,
    fun s hr => ⟨resetBlocks (s.setReset true), ?_, rfl, resetBlocks_resetTo (s.setReset true)⟩,
    fun s hr => ⟨resetBlocks s, ?_, rfl, resetBlocks_resetTo s⟩⟩
  · show Host.Outcome.next (powerOn s) = _
    rw [powerOn, if_neg (by simp [hr])]
  · show Host.Outcome.next (resetDeassert s) = _
    rw [resetDeassert, if_pos hr]
  · show Host.Outcome.next (resetAssert s) = _
    rw [resetAssert, if_neg (by simp [hr])]
  · show Host.Outcome.next (powerOn s) = _
    rw [powerOn, if_pos hr]

/-! ### The declaration of a fault of a rail's own -/

/-- A fault under REPORT: recorded, and its kind disarmed (R32, R33). -/
theorem declareOwn_report {now : Uptime} {k : FaultKind} {c : RailChan} (hr : c.cfg.response = .report) (hk : k ≠ .rampTimeout) :
    declareOwn now k (.of c) = ((RailStep.of c).declare k).withRc (disarm k c) :=
  if_pos ⟨hr, hk⟩

/-- A rail event that declares one fault under REPORT: the record, and the rail with the kind disarmed (R32, R33). -/
theorem finish_report {r : Rail} {k : FaultKind} {f : RailStep → RailStep} {s : State} {c : RailChan}
    (hf : f (.of (s.rail r)) = declareOwn s.now k (.of c)) (hr : c.cfg.response = .report) (hk : k ≠ .rampTimeout) :
    finish (onRail r f (Delta.of s)) = logRail r k c.state none (s.setRail r (disarm k c)) := by
  rw [declareOwn_report hr hk] at hf
  rw [finish_onRail_unmoved (by rw [hf]; rfl) (by rw [hf]; rfl) (by rw [hf]; rfl), hf]
  rfl

/-! ### Edges of XF0# and XF1# -/

theorem mem_boundRails {s : State} {x : XfInput} {r : Rail} : r ∈ s.boundRails x ↔ (s.rail r).cfg.binding = some x := by
  simp [State.boundRails, mem_allRails]

theorem mem_edgeOrder {s : State} {x : XfInput} {r : Rail} (h : r ∈ edgeOrder s x) : (s.rail r).cfg.binding = some x := by
  refine mem_boundRails.mp ?_
  unfold edgeOrder at h
  dsimp only at h
  split at h
  · exact h
  · rcases List.mem_append.mp h with h | h
    · simpa using (List.mem_filter.mp (List.mem_eraseDups.mp h)).2
    · exact (List.mem_filter.mp h).1

theorem allRails_filter_eq : ∀ r : Rail, allRails.filter (fun y => y == r) = [r] := by decide

/-- An input bound to one rail: that rail alone takes its edges. -/
theorem boundRails_eq_singleton {s : State} {x : XfInput} {r : Rail} (h : ∀ y : Rail, (s.rail y).cfg.binding = some x ↔ y = r) :
    s.boundRails x = [r] := by
  rw [← allRails_filter_eq r]
  exact List.filter_congr (fun y _ => by rw [Bool.eq_iff_iff]; simpa using h y)

theorem edgeOrder_eq_singleton {s : State} {x : XfInput} {r : Rail} (h : ∀ y : Rail, (s.rail y).cfg.binding = some x ↔ y = r) :
    edgeOrder s x = [r] := by
  rw [edgeOrder, boundRails_eq_singleton h]
  rfl

/-- An assertion edge outside a reset, with the level taken (R39). -/
theorem exec_xfAssertionEdge {s : State} {x : XfInput} (hr : s.pins.inReset = false) (hx : s.xf x = false) :
    exec (.xfAssertionEdge x) s
      = .next ((edgeOrder s x).foldl (fun t r => takeAssertion r t) { s.setXf x true with freeIndex := s.freeIndex + 1 }) := by
  show Host.Outcome.next (xfAssertion x s) = _
  rw [xfAssertion, if_neg (by simp [hx]), if_neg (by simp [hr])]

theorem railXfAssert_declares {now : Uptime} {c : RailChan} (ha : c.state.active = true) (hd : c.cfg.detect.ext = true) (harm : c.armExt = true) :
    railXfAssert now (.of c) = declareOwn now .ext (.of c) := by
  rw [railXfAssert, if_pos (by exact ha), declareExt, if_pos (by exact ⟨hd, harm⟩)]

theorem railXfAssert_of_quiet {now : Uptime} {c : RailChan} (h : c.state.active = false ∨ c.cfg.detect.ext = false ∨ c.armExt = false) :
    railXfAssert now (.of c) = .of c := by
  unfold railXfAssert
  split
  · rename_i ha
    refine if_neg fun ⟨hd, harm⟩ => ?_
    rcases h with h | h | h
    · exact absurd (ha.symm.trans h) (by decide)
    · exact absurd (hd.symm.trans h) (by decide)
    · exact absurd (harm.symm.trans h) (by decide)
  · rfl

/-- Rails that declare nothing on an edge stand as they were. -/
theorem takeAssertion_of_quiet {r : Rail} {s : State}
    (h : (s.rail r).state.active = false ∨ (s.rail r).cfg.detect.ext = false ∨ (s.rail r).armExt = false) : takeAssertion r s = s := by
  rw [takeAssertion, onRail_of_same (railXfAssert_of_quiet h), finish_of]

theorem foldl_fixed {α : Type} {f : State → α → State} {l : List α} {s : State} (h : ∀ a ∈ l, f s a = s) : l.foldl f s = s := by
  induction l with
  | nil => rfl
  | cons a l ih => rw [List.foldl_cons, h a (by simp), ih (fun b hb => h b (by simp [hb]))]

/-- Rails that are each replaced by what it alone gives, one after another, are replaced together. -/
theorem foldl_setRail (s : State) (g : RailChan → RailChan) (l : List Rail) (hn : l.Nodup) :
    l.foldl (fun t r => t.setRail r (g (t.rail r))) s = s.mapRails l (fun r => g (s.rail r)) := by
  induction l using List.reverseRecOn with
  | nil => exact (mapRails_nil s _).symm
  | append_singleton l a ih =>
    obtain ⟨hl, -, hd⟩ := List.nodup_append.mp hn
    have ha : a ∉ l := fun h => hd a h a (by simp) rfl
    rw [List.foldl_append, ih hl, List.foldl_cons, List.foldl_nil, mapRails_append_singleton, mapRails_rail, if_neg ha]

/-- Settles O49: by what the bound rails make of the edge, one after another. -/
theorem externalInputEdges : Obligations.ExternalInputEdges := by
  intro s x hr
  refine ⟨?quiet, ?report, ?deassert⟩
  case quiet =>
    intro hx h
    have same (r : Rail) : ({ s.setXf x true with freeIndex := s.freeIndex + 1 } : State).rail r = s.rail r := setXf_rail s x true r
    rw [exec_xfAssertionEdge hr hx,
      foldl_fixed (fun r hmem => takeAssertion_of_quiet (by rw [same]; exact h r (mem_edgeOrder hmem)))]
  case report =>
    intro hx r hb ha hd harm hresp
    have same : ({ s.setXf x true with freeIndex := s.freeIndex + 1 } : State).rail r = s.rail r := setXf_rail s x true r
    rw [exec_xfAssertionEdge hr hx, edgeOrder_eq_singleton hb]
    exact congrArg _ (finish_report (k := .ext) (by rw [same]; exact railXfAssert_declares ha hd harm) hresp (by decide))
  case deassert =>
    intro hx
    have hn : (s.boundRails x).Nodup := (show allRails.Nodup by decide).filter _
    show Host.Outcome.next (xfDeassertion x s) = _
    rw [xfDeassertion, if_neg (by simp [hx]), if_neg (by simp [hr])]
    refine congrArg _ ((foldl_setRail (s.setXf x false) railXfDeassert _ hn).trans ?_)
    rw [← mapRails_filter (fun r => (s.rail r).state.active)]
    · refine mapRails_congr (fun r => ?_) (fun r hmem => ?_)
      · simp [mem_boundRails, mem_allRails]
      · obtain ⟨-, ha⟩ : (s.rail r).cfg.binding = some x ∧ (s.rail r).state.active = true := by simpa [mem_allRails] using hmem
        rw [setXf_rail, railXfDeassert, if_pos ha]
    · intro r _ hna
      rw [setXf_rail, railXfDeassert, if_neg (by simpa using hna)]

/-! ### The run of a queue entry -/

/-- The engine takes the oldest entry of the queue, a plan with a quiet interval: it rests in QUIET (R98, R118). -/
theorem chooseNext_quiet {s : State} {e : QueueEntry} {l : List QueueEntry} (n : Nat) (reqs : List PlanRequest) (hs : s.requests.slot = none)
    (hq : s.requests.queue = e :: l) (hquiet : (s.plan e.plan).quiet ≠ 0) :
    chooseNext (n + 1) { s := s, reqs := reqs } = { s := (s.setQueue l).quietRun e, reqs := reqs } := by
  have taken : takeNext s = some ({ plan := e.plan, role := .normal, origin := e.origin, tag := e.tag, failedPlan := none, failingStep := none },
      s.setQueue l) := by
    simp only [takeNext, hs, hq]
  have started : ∀ w : Work, w.s = s.setQueue l →
      startRun { plan := e.plan, role := .normal, origin := e.origin, tag := e.tag, failedPlan := none, failingStep := none } w
        = ({ s := (s.setQueue l).quietRun e, reqs := w.reqs }, .rest) := by
    intro w hw
    rw [startRun, if_pos ⟨rfl, by rw [hw]; exact hquiet⟩]
    simp only [Work.on, hw]
    rfl
  simp only [chooseNext, taken, started]
  rfl

/-- An entry that joins an IDLE engine with nothing waiting is taken at once (R120, R128, R132). -/
theorem joinQueue_quiet {s : State} {e : QueueEntry} (hi : s.engine.run = none) (hw : s.noneWaiting = true)
    (hquiet : (s.plan e.plan).quiet ≠ 0) : joinQueue e s = s.quietRun e := by
  obtain ⟨hslot, hqueue⟩ : s.requests.slot = none ∧ s.requests.queue = [] := by simpa [State.noneWaiting] using hw
  have waiting : (s.setQueue (s.requests.queue ++ [e])).waitingRuns = 0 + 1 := by simp [State.waitingRuns, State.setQueue, hslot, hqueue]
  have chosen := chooseNext_quiet (s := s.setQueue (s.requests.queue ++ [e])) (e := e) (l := []) 0 [] hslot (by rw [hqueue]; rfl) hquiet
  have emptied : (s.setQueue (s.requests.queue ++ [e])).setQueue [] = s := by
    simp only [State.setQueue, ← hqueue]
  rw [joinQueue, if_pos (by simp [State.idle, hi]), waiting, chosen, emptied]
  rfl

/-! ### PWRREQ# -/

theorem exec_pwrreqFallingEdge {s : State} (hr : s.pins.inReset = false) (hp : s.pins.pwrreq = false) :
    exec .pwrreqFallingEdge s = .next (pwrRequest (s.setPwrreq true)) := by
  show Host.Outcome.next (pwrreqFalling s) = _
  rw [pwrreqFalling, if_neg (by simp [hp]), if_neg (by simp [hr])]

theorem pwrRequest_discarded {s : State} (h : s.pins.kill = true ∨ s.requests.pwrPlan = none) : pwrRequest s = s := by
  unfold pwrRequest
  split
  · rfl
  · rename_i hk
    rw [h.resolve_left hk]

/-- A falling edge past its first two tests (R132). -/
theorem pwrRequest_of_plan {s : State} {p : PlanNo} (hk : s.pins.kill = false) (hp : s.requests.pwrPlan = some p) :
    pwrRequest s =
      if !s.ready p then logEngine .planMissing .normal { plan := p, step := none } s
      else if (s.queuePosition p).isSome then s
      else if 4 ≤ s.requests.queue.length then logEngine .requestLost .normal { plan := p, step := none } s
      else joinQueue { plan := p, origin := .pin, tag := none } s := by
  rw [pwrRequest, if_neg (by simp [hk]), hp]

/-- Settles O50: the tests of R132 in their order. -/
theorem pwrreqEdges : Obligations.PwrreqEdges := by
  intro s hr
  refine ⟨rfl, fun hp s1 hs1 => ?_⟩
  have hs1 : s1 = s.setPwrreq true := hs1
  subst hs1
  rw [exec_pwrreqFallingEdge hr hp]
  refine ⟨fun h => congrArg _ (pwrRequest_discarded h), fun hk p hplan => ?_⟩
  rw [pwrRequest_of_plan (s := s.setPwrreq true) hk hplan]
  have notReady {st : PlanState} (h : (s.plan p).state = st) : (s.setPwrreq true).ready p = (st == .ready) := by
    rw [← h]; rfl
  refine ⟨fun hn => ?_, fun hready => ⟨fun ⟨e, he, hep⟩ => ?_, fun hq => ?_⟩⟩
  · rw [if_pos (by rw [notReady rfl]; simpa using hn)]
  · have queued : ((s.setPwrreq true).queuePosition p).isSome = true := by
      rw [State.queuePosition, List.findIdx?_isSome, List.any_eq_true]
      exact ⟨e, he, by simpa using hep⟩
    rw [if_neg (by rw [notReady hready]; decide), if_pos queued]
  · have absent : ((s.setPwrreq true).queuePosition p) = none := queuePosition_eq_none hq
    rw [if_neg (by rw [notReady hready]; decide), absent, if_neg (by decide)]
    refine ⟨fun hfull => congrArg _ (if_pos hfull), fun hroom hrun => ?_, fun hidle hw hquiet => ?_⟩
    · rw [if_neg (by exact Nat.not_le.mpr hroom), joinQueue_of_running _ (by exact hrun)]
      rfl
    · have empty : s.requests.queue = [] := (by simpa [State.noneWaiting] using hw : s.requests.slot = none ∧ s.requests.queue = []).2
      rw [if_neg (by show ¬ 4 ≤ s.requests.queue.length; simp [empty])]
      exact congrArg _ (joinQueue_quiet (s := s.setPwrreq true) hidle hw hquiet)

/-! ### ABORT -/

theorem exec_abort (s : State) : exec .abort s = .next (hostCommand 0x1B hostAbort s) := by
  rfl

theorem hostAbort_notRunning {s : State} (h : s.engine.run = none) : hostAbort s = (.plain .notRunning, s) := by
  simp only [hostAbort, h]

/-- The run in progress ended ABORTED, and the next one chosen (R111). -/
theorem hostAbort_running {s : State} {run : Run} (h : s.engine.run = some run) :
    hostAbort s = ({ code := .accepted, detail := byte run.plan.val },
      (chooseNext s.waitingRuns { s := endRun run .aborted .none none s, reqs := [] }) |> finishWork) := by
  simp only [hostAbort, h]
  rfl

/-- Settles O37: ABORT with an empty queue, and with one whose oldest entry waits out its quiet interval. -/
theorem abortEndsRun : Obligations.AbortEndsRun := by
  intro s hr
  refine ⟨fun h => (exec_refused (exec_abort s) hr (hostAbort_notRunning (s := setCmd 0x1B s) h) rfl :), fun run hrun hslot => ⟨fun hq => ?_, fun e l hq hquiet => ?_⟩⟩
  all_goals
    have judged := exec_done (exec_abort s) hr (hostAbort_running (s := setCmd 0x1B s) hrun) rfl
  · have none : (setCmd 0x1B s).waitingRuns = 0 := by
      show (if s.requests.slot.isSome then 1 else 0) + s.requests.queue.length = 0
      simp [hslot, hq]
    rw [judged, none, endRun, reportOf_eq_ended]
    rfl
  · have some : (setCmd 0x1B s).waitingRuns = l.length + 1 := by
      show (if s.requests.slot.isSome then 1 else 0) + s.requests.queue.length = _
      simp [hslot, hq]
    rw [judged, some, chooseNext_quiet (e := e) (l := l) _ _ (by exact hslot) (by exact hq) (by exact hquiet), endRun, reportOf_eq_ended]
    rfl

end Sys2Proof.Machine
end

section
/-! PROOFS. The rail commands from the host, on one rail and on groups (R13 to R16, R67 to R70). What a command answers is read off its judgement
(`Answered`), what it does off the rails that pass it (`foldl_moves`, `finish_movedDelta`). -/

namespace Sys2Proof.Machine

/-! ### Rails that move and do nothing else -/

/-- What rails hand on that have each moved without a declaration. -/
def movedDelta (s : State) (l : List Rail) (c : Rail → RailChan) : Delta where
  s := s.mapRails l c
  changed := RailSet.ofList l
  reqs := []
  shed := false

/-- On a part that differs from the part at the start in other rails alone, an action makes its rail become what is given, and nothing else. -/
def Moves1 (s : State) (act : Rail → Delta → Delta) (c : Rail → RailChan) (r : Rail) : Prop :=
  ∀ d : Delta, s.SameElsewhere d.s → d.s.rail r = s.rail r → act r d = commit r ((RailStep.of (s.rail r)).move (c r)) d

theorem foldl_moves {s : State} {act : Rail → Delta → Delta} {c : Rail → RailChan} {l : List Rail} (hn : l.Nodup) (h : ∀ r ∈ l, Moves1 s act c r) :
    l.foldl (fun d r => act r d) (Delta.of s) = movedDelta s l c := by
  rw [foldl_quiet s act (fun r => (RailStep.of (s.rail r)).move (c r)) l hn h (fun r _ => ⟨rfl, rfl⟩)]
  have all : l.filter (fun r => ((RailStep.of (s.rail r)).move (c r)).moved) = l := List.filter_eq_self.mpr (fun _ _ => rfl)
  have none : l.any (fun r => ((RailStep.of (s.rail r)).move (c r)).entered && ((RailStep.of (s.rail r)).move (c r)).rc.cfg.shedMember) = false :=
    List.any_eq_false.mpr (fun _ _ => by simp [RailStep.of, RailStep.move])
  rw [quietDelta, all, none]
  rfl

theorem finish_movedDelta {s : State} {l : List Rail} {c : Rail → RailChan} (hu : ∀ r ∈ l, s.unawaited r = true) :
    finish (movedDelta s l c) = (s.mapRails l c).told (RailSet.ofList l) := by
  refine finish_told (fun r hr => ?_) rfl
  have hmem : r ∈ l := by simpa [movedDelta, has_ofList] using hr
  exact (unawaited_congr rfl rfl r).trans (hu r hmem)

/-- One rail that moves: its change handed on. -/
theorem movedDelta_singleton (s : State) (r : Rail) (c : Rail → RailChan) :
    (s.mapRails [r] c).told (RailSet.ofList [r]) = s.changedRail r (c r) := by
  rw [mapRails_singleton]
  rfl

theorem boundAsserted_congr {s t : State} {r : Rail} (hp : t.pins = s.pins) (hr : t.rail r = s.rail r) : t.boundAsserted r = s.boundAsserted r := by
  unfold State.boundAsserted State.xf
  rw [hr, hp]

/-- RAISE of a rail at ZERO on which no fault stands (R14, R17, R40). -/
theorem doRaise_moves {s : State} {r : Rail} (hz : (s.rail r).zone = .zero) (hn : s.nothingStands r = true) :
    Moves1 s doRaise (fun r => (s.rail r).raised s.now) r := by
  intro d he hr
  obtain ⟨flag, input⟩ := nothingStands_iff.mp hn
  have now : d.s.now = s.now := he.uptime
  rw [doRaise, onRail, hr, now, boundAsserted_congr he.pins hr, railRaise_eq_raised _ _ _ hz flag input]

theorem doLower_moves (s : State) (r : Rail) : Moves1 s doLower (fun r => (s.rail r).lowered s.now) r := by
  intro d he hr
  have now : d.s.now = s.now := he.uptime
  rw [doLower, onRail, hr, now, enterLowering_eq_lowered]
  rfl

/-- CLEAR of a rail at ZERO (R16). -/
theorem doClear_moves {s : State} {r : Rail} (hz : (s.rail r).zone = .zero) : Moves1 s doClear (fun r => (s.rail r).cleared) r := by
  intro d _ hr
  rw [doClear, onRail, hr, railClear_eq_cleared _ _ hz]

/-! ### The answer of a host command that has changed rails -/

/-- The notification unit when a set of rails has joined the rail change set. -/
def Notify.joinedBy (n : Notify) (x : RailSet) : Notify := if x = 0 then n else { n with changed := n.changed ||| x }.judge

/-- The quiet timer when rails have changed. -/
def State.quietTold (s : State) : Option Timer :=
  match s.engine.run with
  | some run => if run.phase = .quiet then startTimer s.now (s.plan run.plan).quiet else s.engine.quietT
  | none => s.engine.quietT

theorem joined_eq (s : State) (x : RailSet) : s.joined x = s.setNotify (s.notify.joinedBy x) := by
  unfold State.joined Notify.joinedBy
  split <;> rfl

theorem quietAfresh_eq (s : State) : s.quietAfresh = s.setEngineTimers s.quietTold s.engine.stepT s.engine.holdT := by
  cases h : s.engine.run with
  | none =>
    simp only [State.quietAfresh, State.quietTold, h]
    rfl
  | some run =>
    simp only [State.quietAfresh, State.quietTold, h]
    split <;> rfl

/-- What is told of changes touches the notification unit and the quiet timer alone. -/
theorem told_eq (s : State) (x : RailSet) :
    s.told x = (s.setNotify (s.notify.joinedBy x)).setEngineTimers (if x = 0 then s.engine.quietT else s.quietTold) s.engine.stepT s.engine.holdT := by
  unfold State.told
  split
  · rename_i hx
    rw [Notify.joinedBy, if_pos hx]
    rfl
  · rw [joined_eq, quietAfresh_eq]
    rfl

theorem told_setCmd (code : Byte) (s : State) (x : RailSet) : (setCmd code s).told x = setCmd code (s.told x) := by
  rw [told_eq, told_eq]
  rfl

theorem told_window (s : State) (x : RailSet) (code res detail : Byte) : (s.window code res detail).told x = (s.told x).window code res detail := by
  rw [told_eq, told_eq]
  rfl

theorem changedRail_setCmd (code : Byte) (s : State) (r : Rail) (c : RailChan) :
    (setCmd code s).changedRail r c = setCmd code (s.changedRail r c) := told_setCmd code (s.setRail r c) _

theorem changedRail_window (s : State) (r : Rail) (c : RailChan) (code res detail : Byte) :
    (s.window code res detail).changedRail r c = (s.changedRail r c).window code res detail := told_window (s.setRail r c) _ _ _ _

section Answered

variable {s u : State} {i : Instr} {code : Byte} {owner : State → Verdict × State} {v : Verdict}

/-- A command whose owner has left CMD alone: the part as the owner leaves it, and the answer (R177). -/
theorem exec_answered (he : exec i s = .next (hostCommand code owner s)) (hr : s.pins.inReset = false)
    (ho : owner (setCmd code s) = (v, setCmd code u)) :
    exec i s = .next (if v.code.isRefusal then u.refusedWith code v.code.code v.detail else u.window code v.code.code v.detail) := by
  rw [he, hostCommand_eq_answer hr, ho]
  rfl

end Answered

/-! ### A command on one rail -/

theorem exec_raise (s : State) : exec .raise s = .next (hostCommand 0x01 hostRaise s) := by
  rfl

theorem exec_lower (s : State) : exec .lower s = .next (hostCommand 0x02 hostLower s) := by
  rfl

theorem exec_clear (s : State) : exec .clear s = .next (hostCommand 0x03 hostClear s) := by
  rfl

section OneRail

variable {judge : State → Rail → Verdict} {act : Rail → Delta → Delta} {s : State} {b : Byte} {r : Rail} {v : Verdict}

theorem ownRails_badArgument (h : 16 ≤ b.toNat) : ownRails (railCommandOf judge act b) s = (.plain .badArgument, s) := by
  have none : railOperand b = none := railOf_eq_none.mpr h
  simp only [ownRails, railCommandOf, none, finish_of]

/-- A command that the judgement of its rail does not accept changes nothing. -/
theorem ownRails_kept (hb : b = railByte r) (hj : judge s r = v) (hv : v.code ≠ .accepted) : ownRails (railCommandOf judge act b) s = (v, s) := by
  have some : railOperand b = some r := hb ▸ railOf_railByte r
  simp only [ownRails, railCommandOf, some, railCommand, hj, if_neg hv, finish_of]

theorem ownRails_accepted (hb : b = railByte r) (hj : judge s r = .plain .accepted) :
    ownRails (railCommandOf judge act b) s = (.plain .accepted, finish (act r (Delta.of s))) := by
  have some : railOperand b = some r := hb ▸ railOf_railByte r
  simp only [ownRails, railCommandOf, some, railCommand, hj]
  rfl

/-- An accepted command on a rail that no step waits on, and that moves and does nothing else. -/
theorem ownRails_moves {c : Rail → RailChan} (hb : b = railByte r) (hj : judge s r = .plain .accepted) (hm : Moves1 s act c r)
    (hu : s.unawaited r = true) : ownRails (railCommandOf judge act b) s = (.plain .accepted, s.changedRail r (c r)) := by
  have moved : act r (Delta.of s) = movedDelta s [r] c := foldl_moves (l := [r]) (by simp) (by simpa using hm)
  rw [ownRails_accepted hb hj, moved, finish_movedDelta (by simpa using hu), movedDelta_singleton]

end OneRail

/-! ### Judgements -/

theorem parentNotOn_eq_none {s : State} {r : Rail} (h : s.allParentsOn r) : s.parentNotOn r = none := by
  refine lowestRail_eq_none.mpr fun p => ?_
  by_cases hp : p ∈ (s.rail r).cfg.parents
  · simp [h p hp]
  · simp [hp]

theorem parentNotOn_eq_some {s : State} {r p : Rail} (h : s.lowestParentNotOn r p) : s.parentNotOn r = some p := by
  obtain ⟨hmem, hoff, low⟩ := h
  refine lowestRail_eq_some.mpr ⟨by simp [hmem, hoff], fun q hq => ?_⟩
  by_cases hp : q ∈ (s.rail r).cfg.parents
  · simp [low q hp hq]
  · simp [hp]

section Raise

variable {s : State} {r : Rail}

theorem judgeRaise_parentNotOn {p : Rail} (hs : (s.rail r).state = .off) (hp : s.lowestParentNotOn r p) :
    judgeRaise s r = { code := .parentNotOn, detail := railByte p } := by
  simp only [judgeRaise, hs, parentNotOn_eq_some hp]

theorem judgeRaise_backfeedPresent (hs : (s.rail r).state = .off) (hp : s.allParentsOn r) (hz : (s.rail r).zone ≠ .zero) :
    judgeRaise s r = .plain .backfeedPresent := by
  simp only [judgeRaise, hs, parentNotOn_eq_none hp, if_pos hz]

theorem judgeRaise_killed (hs : (s.rail r).state = .off) (hp : s.allParentsOn r) (hz : (s.rail r).zone = .zero) (hk : s.pins.kill = true) :
    judgeRaise s r = .plain .killed := by
  simp [judgeRaise, hs, parentNotOn_eq_none hp, hz, hk]

/-- A rail past the four checks of R14. -/
theorem judgeRaise_ready (hs : (s.rail r).state = .off) (hp : s.allParentsOn r) (hz : (s.rail r).zone = .zero) (hk : s.pins.kill = false) :
    judgeRaise s r = .plain .accepted := by
  simp [judgeRaise, hs, parentNotOn_eq_none hp, hz, hk]

end Raise

/-- Settles O19: each answer of the judgement, in the order of R14's checks. -/
theorem raiseAnswers : Obligations.RaiseAnswers := by
  intro s hr
  have answered {r : Rail} {v : Verdict} (h0 : s.bus.arg0 = railByte r) (hj : judgeRaise (setCmd 0x01 s) r = v) (hv : v.code.isRefusal = true) :
      exec .raise s = .next (s.refusedWith 0x01 v.code.code v.detail) :=
    exec_refused (exec_raise s) hr (ownRails_kept h0 hj (fun ha => by simp [ha, Result.isRefusal] at hv)) hv
  refine ⟨fun h => (exec_refused (exec_raise s) hr (ownRails_badArgument (s := setCmd 0x01 s) h) rfl :), fun r h0 => ⟨fun hs => ?_, fun hs => ?_, fun hs p hp => ?_,
    fun hs hp hz => ?_, fun hs hp hz hk => ?_⟩⟩
  · refine answered (v := .plain .state) h0 ?_ rfl
    rcases hs with hs | hs | hs | hs <;> simp [judgeRaise, setCmd_rail, hs]
  · have already : judgeRaise (setCmd 0x01 s) r = .plain .already := by
      rcases hs with hs | hs <;> simp [judgeRaise, setCmd_rail, hs]
    exact (exec_done (exec_raise s) hr (ownRails_kept h0 already (by decide)) rfl :)
  · exact answered h0 (judgeRaise_parentNotOn (s := setCmd 0x01 s) hs hp) rfl
  · exact answered h0 (judgeRaise_backfeedPresent (s := setCmd 0x01 s) hs hp hz) rfl
  · exact answered h0 (judgeRaise_killed (s := setCmd 0x01 s) hs hp hz hk) rfl

/-! ### CLEAR -/

/-- The condition that R16 finds first is the standing one of the lowest kind. -/
theorem firstCondition_eq_standing (s : State) (r : Rail) : firstCondition s r = s.standing r := by
  have ov : conditionPresent s r .ov = true ↔ (s.rail r).latched.getLsbD 0 = true ∧ (s.rail r).zone = .high := by
    simp [conditionPresent, hasKind, FaultKind.code]
  have oc : conditionPresent s r .oc = true ↔ (s.rail r).latched.getLsbD 2 = true ∧ (s.rail r).overCurrent = true := by
    simp [conditionPresent, hasKind, FaultKind.code]
  have ext : conditionPresent s r .ext = true ↔ (s.rail r).latched.getLsbD 3 = true ∧ s.boundAsserted r = true := by
    simp [conditionPresent, hasKind, FaultKind.code]
  unfold State.standing
  split_ifs with h1 h2 h3
  · rw [firstCondition, List.find?_cons_of_pos (ov.mpr h1)]
  · rw [firstCondition, List.find?_cons_of_neg (mt ov.mp h1), List.find?_cons_of_pos (oc.mpr h2)]
  · rw [firstCondition, List.find?_cons_of_neg (mt ov.mp h1), List.find?_cons_of_neg (mt oc.mp h2), List.find?_cons_of_pos (ext.mpr h3)]
  · rw [firstCondition, List.find?_cons_of_neg (mt ov.mp h1), List.find?_cons_of_neg (mt oc.mp h2), List.find?_cons_of_neg (mt ext.mp h3)]
    rfl

section Clear

variable {s : State} {r : Rail}

theorem judgeClear_conditionPresent {k : FaultKind} (h : (s.rail r).state = .faulted ∨ (s.rail r).state = .locked) (hk : s.standing r = some k) :
    judgeClear s r = { code := .conditionPresent, detail := byte k.code } := by
  rw [← firstCondition_eq_standing] at hk
  rcases h with h | h <;> simp only [judgeClear, h, hk]

theorem judgeClear_unlatched (h : (s.rail r).state = .faulted ∨ (s.rail r).state = .locked) (hn : s.standing r = none) :
    judgeClear s r = if (s.rail r).zone ≠ .zero then .plain .notDischarged else .plain .accepted := by
  rw [← firstCondition_eq_standing] at hn
  rcases h with h | h <;> simp only [judgeClear, h, hn]

end Clear

/-- Settles O23: each answer of the judgement, and the rail cleared when it passes. -/
theorem clearAnswersAndClears : Obligations.ClearAnswersAndClears := by
  intro s hr
  have answered {r : Rail} {v : Verdict} (h0 : s.bus.arg0 = railByte r) (hj : judgeClear (setCmd 0x03 s) r = v) (hv : v.code.isRefusal = true) :
      exec .clear s = .next (s.refusedWith 0x03 v.code.code v.detail) :=
    exec_refused (exec_clear s) hr (ownRails_kept h0 hj (fun ha => by simp [ha, Result.isRefusal] at hv)) hv
  refine ⟨fun h => (exec_refused (exec_clear s) hr (ownRails_badArgument (s := setCmd 0x03 s) h) rfl :), fun r h0 => ⟨fun hs => ?_, fun hs => ?_,
    fun hs => ⟨fun k hk => ?_, fun hn hz => ?_, fun hn hz hu => ?_⟩⟩⟩
  · refine answered (v := .plain .state) h0 ?_ rfl
    rcases hs with hs | hs | hs | hs <;> simp [judgeClear, setCmd_rail, hs]
  · have already : judgeClear (setCmd 0x03 s) r = .plain .already := by simp [judgeClear, setCmd_rail, hs]
    exact (exec_done (exec_clear s) hr (ownRails_kept h0 already (by decide)) rfl :)
  · exact answered h0 (judgeClear_conditionPresent (s := setCmd 0x03 s) hs hk) rfl
  · exact answered (v := .plain .notDischarged) h0 ((judgeClear_unlatched (s := setCmd 0x03 s) hs hn).trans (if_pos hz)) rfl
  · have accepted : judgeClear (setCmd 0x03 s) r = .plain .accepted :=
      (judgeClear_unlatched (s := setCmd 0x03 s) hs hn).trans (if_neg (not_not.mpr hz))
    have cleared := ownRails_moves h0 accepted (doClear_moves (s := setCmd 0x03 s) hz) hu
    rw [changedRail_window]
    exact (exec_answered (exec_clear s) hr (cleared.trans (congrArg _ (changedRail_setCmd _ _ _ _))) :)

end Sys2Proof.Machine
end

section
/-! PROOFS. The group commands (R67 to R70): which selected rails pass and which are refused (`Answered`), the result that follows from them, and the
rails that pass changed together. -/

namespace Sys2Proof.Machine

/-! ### What a rail answers -/

/-- A verdict on a rail: its refusal, or ACCEPTED where the rail passes and ALREADY where it does not. -/
structure Answered (v : Verdict) (passes : Bool) (refusal : Option Result) : Prop where
  refused : ∀ k, refusal = some k → v.code = k ∧ k.isRefusal = true
  passed : refusal = none → v.code = if passes then .accepted else .already

section Answered

variable {v : Verdict} {passes : Bool} {refusal : Option Result}

theorem Answered.of_refused {k : Result} (h : v.code = k) (hk : k.isRefusal = true) : Answered v passes (some k) :=
  ⟨fun _ hk' => by cases hk'; exact ⟨h, hk⟩, fun hn => by cases hn⟩

theorem Answered.of_passed (h : v.code = if passes then .accepted else .already) : Answered v passes none :=
  ⟨fun _ hk => (by cases hk), fun _ => h⟩

theorem Answered.accepted_eq (h : Answered v passes refusal) : (v.code == .accepted) = (passes && refusal.isNone) := by
  cases hr : refusal with
  | none => rw [h.passed hr]; cases passes <;> rfl
  | some k =>
    obtain ⟨hv, hk⟩ := h.refused k hr
    have other : k ≠ .accepted := fun he => by simp [he, Result.isRefusal] at hk
    simp [hv, other]

theorem Answered.isRefusal_eq (h : Answered v passes refusal) : v.code.isRefusal = refusal.isSome := by
  cases hr : refusal with
  | none => rw [h.passed hr]; cases passes <;> rfl
  | some k =>
    obtain ⟨hv, hk⟩ := h.refused k hr
    rw [hv, hk]
    rfl

end Answered

theorem parents_any_off {s : State} {r : Rail} : (s.rail r).cfg.parents.any (fun p => (s.rail p).state != .on) = false ↔ s.allParentsOn r := by
  simp [List.any_eq_false]

/-- A rail in OFF past its parents' check (R14). -/
theorem raiseRefusal_of_parentsOn {s : State} {r : Rail} (hs : (s.rail r).state = .off) (hp : s.allParentsOn r) :
    s.raiseRefusal r = if (s.rail r).zone ≠ .zero then some .backfeedPresent else if s.pins.kill then some .killed else none := by
  simp only [State.raiseRefusal, hs, parents_any_off.mpr hp]
  rfl

theorem judgeRaise_answered (s : State) (r : Rail) : Answered (judgeRaise s r) ((s.rail r).state == .off) (s.raiseRefusal r) := by
  cases hs : (s.rail r).state with
  | off =>
    cases hp : s.parentNotOn r with
    | some p =>
      have any : (s.rail r).cfg.parents.any (fun p => (s.rail p).state != .on) = true := by
        rw [← Bool.not_eq_false, parents_any_off]
        intro on
        rw [parentNotOn_eq_none on] at hp
        cases hp
      simp only [judgeRaise, State.raiseRefusal, hs, hp, any, if_true]
      exact .of_refused rfl rfl
    | none =>
      have on := allParentsOn_of_parentNotOn hp
      rw [raiseRefusal_of_parentsOn hs on]
      by_cases hz : (s.rail r).zone = .zero
      · rw [if_neg (not_not.mpr hz)]
        cases hk : s.pins.kill with
        | true => rw [judgeRaise_killed hs on hz hk]; exact .of_refused rfl rfl
        | false => rw [judgeRaise_ready hs on hz hk]; exact .of_passed rfl
      · rw [if_pos hz, judgeRaise_backfeedPresent hs on hz]
        exact .of_refused rfl rfl
  | ramping | on =>
    simp only [judgeRaise, State.raiseRefusal, hs]
    exact .of_passed rfl
  | unused | lowering | faulted | locked =>
    simp only [judgeRaise, State.raiseRefusal, hs]
    exact .of_refused rfl rfl

/-- A rail in FAULTED or LOCKED (R16). -/
theorem clearRefusal_of_cut {s : State} {r : Rail} (h : (s.rail r).state = .faulted ∨ (s.rail r).state = .locked) :
    s.clearRefusal r = if (s.standing r).isSome then some .conditionPresent else if (s.rail r).zone ≠ .zero then some .notDischarged else none := by
  rcases h with h | h <;> simp only [State.clearRefusal, h]

theorem judgeClear_answered (s : State) (r : Rail) : Answered (judgeClear s r) ((s.rail r).state != .off) (s.clearRefusal r) := by
  have cut (h : (s.rail r).state = .faulted ∨ (s.rail r).state = .locked) : Answered (judgeClear s r) true (s.clearRefusal r) := by
    rw [clearRefusal_of_cut h]
    cases hk : s.standing r with
    | some k =>
      rw [judgeClear_conditionPresent h hk]
      exact .of_refused rfl rfl
    | none =>
      rw [judgeClear_unlatched h hk]
      simp only [Option.isSome_none, Bool.false_eq_true, if_false]
      by_cases hz : (s.rail r).zone = .zero
      · rw [if_neg (not_not.mpr hz), if_neg (not_not.mpr hz)]
        exact .of_passed rfl
      · rw [if_pos hz, if_pos hz]
        exact .of_refused rfl rfl
  cases hs : (s.rail r).state with
  | faulted => exact cut (.inl hs)
  | locked => exact cut (.inr hs)
  | off =>
    simp only [judgeClear, State.clearRefusal, hs]
    exact .of_passed rfl
  | unused | ramping | on | lowering =>
    simp only [judgeClear, State.clearRefusal, hs]
    exact .of_refused rfl rfl

/-- A rail that RAISE accepts has its voltage at ZERO (R14). -/
theorem zone_of_raiseRefusal {s : State} {r : Rail} (hs : (s.rail r).state = .off) (h : s.raiseRefusal r = none) : (s.rail r).zone = .zero := by
  by_contra hz
  simp only [State.raiseRefusal, hs, ne_eq, hz, not_false_eq_true, if_true] at h
  split at h <;> cases h

/-- A rail that CLEAR accepts has its voltage at ZERO (R16). -/
theorem zone_of_clearRefusal {s : State} {r : Rail} (hs : (s.rail r).state ≠ .off) (h : s.clearRefusal r = none) : (s.rail r).zone = .zero := by
  by_contra hz
  simp only [State.clearRefusal, ne_eq, hz, not_false_eq_true, if_true] at h
  split at h
  · split at h <;> cases h
  · split at h <;> cases h
  · rename_i hoff; exact hs hoff
  · cases h

/-! ### The result of a group command on each of its rails -/

section Each

variable {judge : State → Rail → Verdict} {act : Rail → Delta → Delta} {c : Rail → RailChan} {s : State} {passes : Rail → Bool}
  {refusal : Rail → Option Result} {sel acc ref : List Rail}

/-- The selected rails that pass, and those that are refused. -/
structure Sorted (judge : State → Rail → Verdict) (s : State) (sel acc ref : List Rail) : Prop where
  accepted : acc = sel.filter (fun r => (judge s r).code == .accepted)
  refused : ref = sel.filter (fun r => (judge s r).code.isRefusal)

theorem Sorted.of_answered (h : ∀ r, Answered (judge s r) (passes r) (refusal r)) (ha : acc = sel.filter (fun r => passes r && (refusal r).isNone))
    (hr : ref = sel.filter (fun r => (refusal r).isSome)) : Sorted judge s sel acc ref := by
  refine ⟨ha.trans (List.filter_congr fun r _ => ?_), hr.trans (List.filter_congr fun r _ => ?_)⟩
  · exact (h r).accepted_eq.symm
  · exact (h r).isRefusal_eq.symm

theorem Sorted.groupVerdict_eq (h : Sorted judge s sel acc ref) :
    groupVerdict (sel.map (fun r => (r, judge s r))) =
      match ref with
      | [] => { code := .accepted, detail := byte acc.length }
      | x :: _ => if acc.length ≠ 0 then { code := .partialResult, detail := byte ref.length } else { code := (judge s x).code, detail := railByte x } := by
  obtain ⟨ha, hr⟩ := h
  have accepted : (sel.map (fun r => (r, judge s r))).filter (fun x => x.2.code == .accepted) = acc.map (fun r => (r, judge s r)) := by
    rw [List.filter_map, ha]
    rfl
  have refused : (sel.map (fun r => (r, judge s r))).filter (fun x => x.2.code.isRefusal) = ref.map (fun r => (r, judge s r)) := by
    rw [List.filter_map, hr]
    rfl
  simp only [groupVerdict, accepted, refused, List.length_map]
  cases ref with
  | nil => rfl
  | cons x l => rfl

theorem Sorted.verdict_accepted (h : Sorted judge s sel acc ref) (hr : ref = []) :
    groupVerdict (sel.map (fun r => (r, judge s r))) = { code := .accepted, detail := byte acc.length } := by
  subst hr
  exact h.groupVerdict_eq

theorem Sorted.verdict_partial (h : Sorted judge s sel acc ref) (hr : ref ≠ []) (ha : acc ≠ []) :
    groupVerdict (sel.map (fun r => (r, judge s r))) = { code := .partialResult, detail := byte ref.length } := by
  obtain ⟨x, l, rfl⟩ := List.exists_cons_of_ne_nil hr
  exact h.groupVerdict_eq.trans (if_pos (by simpa using ha))

theorem Sorted.verdict_refused (h : Sorted judge s sel acc ref) {x : Rail} {l : List Rail} (hr : ref = x :: l) (ha : acc = []) :
    groupVerdict (sel.map (fun r => (r, judge s r))) = { code := (judge s x).code, detail := railByte x } := by
  subst hr ha
  exact h.groupVerdict_eq

/-- The rails that pass are changed together. -/
theorem Sorted.groupEach_eq (h : Sorted judge s sel acc ref) {tag mask : BitVec 4} (hs : s.selected tag mask = sel) (hne : sel ≠ [])
    (hm : ∀ r ∈ acc, Moves1 s act c r) :
    groupEach judge act tag mask s = (groupVerdict (sel.map (fun r => (r, judge s r))), movedDelta s acc c) := by
  have hn : acc.Nodup := by
    rw [h.accepted, ← hs]
    exact ((List.nodup_finRange 16).filter _).filter _
  rw [groupEach_of_selected judge act hs hne, ← h.accepted, foldl_moves hn hm]

end Each

/-! ### Group targets -/

theorem groupOperand_eq_none {a b : Byte} (h : 16 ≤ a.toNat ∨ 16 ≤ b.toNat) : groupOperand a b = none :=
  if_neg (by omega)

theorem groupOperand_digits (tag mask : BitVec 4) : groupOperand (tag.setWidth 8) (mask.setWidth 8) = some (tag, mask) := by
  have small (x : BitVec 4) : (x.setWidth 8).toNat < 16 := by
    rw [BitVec.toNat_setWidth, Nat.mod_eq_of_lt (by omega)]
    omega
  have back (x : BitVec 4) : (x.setWidth 8).setWidth 4 = x := by
    rw [BitVec.setWidth_setWidth_of_le _ (by decide), BitVec.setWidth_eq]
  rw [groupOperand, if_pos ⟨small tag, small mask⟩, back, back]

section Group

variable {run : BitVec 4 → BitVec 4 → State → Verdict × Delta} {s : State} {a b : Byte}

theorem groupCommand_badArgument (h : 16 ≤ a.toNat ∨ 16 ≤ b.toNat) : ownRails (groupCommandOf run a b) s = (.plain .badArgument, s) := by
  simp only [ownRails, groupCommandOf, groupOperand_eq_none h, finish_of]

theorem groupCommand_of {tag mask : BitVec 4} {v : Verdict} {d : Delta} (ha : a = tag.setWidth 8) (hb : b = mask.setWidth 8)
    (h : run tag mask s = (v, d)) : ownRails (groupCommandOf run a b) s = (v, finish d) := by
  simp only [ownRails, groupCommandOf, ha, hb, groupOperand_digits, h]

end Group

/-- A group command on each of its rails, from the host: the result, the rails that pass changed together, and their changes handed on. -/
theorem exec_groupEach {i : Instr} {code : Byte} {judge : State → Rail → Verdict} {act : Rail → Delta → Delta} {c : Rail → RailChan} {s : State}
    {sel acc ref : List Rail} {tag mask : BitVec 4}
    (he : exec i s = .next (hostCommand code (fun t => ownRails (groupCommandOf (groupEach judge act) t.bus.arg0 t.bus.arg1) t) s))
    (hr : s.pins.inReset = false) (ha : s.bus.arg0 = tag.setWidth 8) (hb : s.bus.arg1 = mask.setWidth 8)
    (h : Sorted judge (setCmd code s) sel acc ref) (hs : s.selected tag mask = sel) (hne : sel ≠ [])
    (hm : ∀ r ∈ acc, Moves1 (setCmd code s) act c r) (hu : ∀ r ∈ acc, s.unawaited r = true) {v : Verdict}
    (hv : groupVerdict (sel.map (fun r => (r, judge (setCmd code s) r))) = v) :
    exec i s = .next (if v.code.isRefusal then ((s.mapRails acc c).told (RailSet.ofList acc)).refusedWith code v.code.code v.detail
      else ((s.mapRails acc c).told (RailSet.ofList acc)).window code v.code.code v.detail) := by
  have each := h.groupEach_eq (act := act) (c := c) hs hne hm
  refine exec_answered he hr ((groupCommand_of (s := setCmd code s) ha hb each).trans ?_)
  rw [hv, finish_movedDelta (s := setCmd code s) hu]
  exact congrArg _ (told_setCmd code (s.mapRails acc c) _)

theorem exec_raiseGroup (s : State) : exec .raiseGroup s = .next (hostCommand 0x04 hostRaiseGroup s) := by
  rfl

theorem exec_clearGroup (s : State) : exec .clearGroup s = .next (hostCommand 0x06 hostClearGroup s) := by
  rfl

theorem exec_lowerGroup (s : State) : exec .lowerGroup s = .next (hostCommand 0x05 hostLowerGroup s) := by
  rfl

theorem mapRails_told_nil (s : State) (c : Rail → RailChan) : (s.mapRails [] c).told (RailSet.ofList []) = s := by
  rw [mapRails_nil]
  exact told_zero s

/-- Settles O24: the rails that pass are those that a RAISE of their own would accept. -/
theorem raiseGroupRaisesEach : Obligations.RaiseGroupRaisesEach := by
  intro s hr
  refine ⟨fun h => (exec_refused (exec_raiseGroup s) hr (groupCommand_badArgument (s := setCmd 0x04 s) h) rfl :), fun tag mask ha hb sel acc ref hsel hacc href => ?_⟩
  have sorted : Sorted judgeRaise (setCmd 0x04 s) sel acc ref := .of_answered (judgeRaise_answered (setCmd 0x04 s)) hacc href
  have moves : (∀ r ∈ acc, s.nothingStands r = true) → ∀ r ∈ acc, Moves1 (setCmd 0x04 s) doRaise (fun r => (s.rail r).raised s.now) r := by
    intro hn r hmem
    obtain ⟨-, hoff, hnone⟩ : r ∈ sel ∧ (s.rail r).state = .off ∧ s.raiseRefusal r = none := by
      rw [hacc] at hmem
      simpa using hmem
    exact doRaise_moves (s := setCmd 0x04 s) (zone_of_raiseRefusal hoff hnone) (hn r hmem)
  refine ⟨fun hnil => ?_, fun x l k hnil hcons hk => ?_, fun hne hnil hall => ?_, fun hsome hne hall => ?_⟩
  · have empty := groupEach_of_empty judgeRaise doRaise (s := setCmd 0x04 s) (hsel.symm.trans hnil)
    exact (exec_refused (exec_raiseGroup s) hr ((groupCommand_of (s := setCmd 0x04 s) ha hb empty).trans (congrArg _ (finish_of _))) rfl :)
  · obtain ⟨hx, hrefusal⟩ := (judgeRaise_answered (setCmd 0x04 s) x).refused k hk
    have hne : sel ≠ [] := fun hn => by rw [hn] at href; rw [href] at hcons; cases hcons
    have outcome := exec_groupEach (c := fun r => (s.rail r).raised s.now) (exec_raiseGroup s) hr ha hb sorted hsel.symm hne (by simp [hnil]) (by simp [hnil])
      (sorted.verdict_refused hcons hnil)
    rw [outcome, hx, if_pos hrefusal, hnil, mapRails_told_nil]
  · exact exec_groupEach (exec_raiseGroup s) hr ha hb sorted hsel.symm hne (moves fun r h => (hall r h).1) (fun r h => (hall r h).2)
      (sorted.verdict_accepted hnil)
  · have hsel_ne : sel ≠ [] := fun hn => by rw [hn] at hacc; exact hne hacc
    exact exec_groupEach (exec_raiseGroup s) hr ha hb sorted hsel.symm hsel_ne (moves fun r h => (hall r h).1) (fun r h => (hall r h).2)
      (sorted.verdict_partial hsome hne)

/-- Settles O26: the rails that pass are those that a CLEAR of their own would accept. -/
theorem clearGroupClearsEach : Obligations.ClearGroupClearsEach := by
  intro s hr
  refine ⟨fun h => (exec_refused (exec_clearGroup s) hr (groupCommand_badArgument (s := setCmd 0x06 s) h) rfl :), fun tag mask ha hb sel acc ref hsel hacc href => ?_⟩
  have sorted : Sorted judgeClear (setCmd 0x06 s) sel acc ref := .of_answered (judgeClear_answered (setCmd 0x06 s)) hacc href
  have moves : ∀ r ∈ acc, Moves1 (setCmd 0x06 s) doClear (fun r => (s.rail r).cleared) r := by
    intro r hmem
    obtain ⟨-, hoff, hnone⟩ : r ∈ sel ∧ (s.rail r).state ≠ .off ∧ s.clearRefusal r = none := by
      rw [hacc] at hmem
      simpa using hmem
    exact doClear_moves (s := setCmd 0x06 s) (zone_of_clearRefusal hoff hnone)
  refine ⟨fun hnil => ?_, fun x l k hnil hcons hk => ?_, fun hne hnil hall => ?_, fun hsome hne hall => ?_⟩
  · have empty := groupEach_of_empty judgeClear doClear (s := setCmd 0x06 s) (hsel.symm.trans hnil)
    exact (exec_refused (exec_clearGroup s) hr ((groupCommand_of (s := setCmd 0x06 s) ha hb empty).trans (congrArg _ (finish_of _))) rfl :)
  · obtain ⟨hx, hrefusal⟩ := (judgeClear_answered (setCmd 0x06 s) x).refused k hk
    have hne : sel ≠ [] := fun hn => by rw [hn] at href; rw [href] at hcons; cases hcons
    have outcome := exec_groupEach (c := fun r => (s.rail r).cleared) (exec_clearGroup s) hr ha hb sorted hsel.symm hne (by simp [hnil]) (by simp [hnil])
      (sorted.verdict_refused hcons hnil)
    rw [outcome, hx, if_pos hrefusal, hnil, mapRails_told_nil]
  · exact exec_groupEach (exec_clearGroup s) hr ha hb sorted hsel.symm hne moves hall (sorted.verdict_accepted hnil)
  · have hsel_ne : sel ≠ [] := fun hn => by rw [hn] at hacc; exact hne hacc
    exact exec_groupEach (exec_clearGroup s) hr ha hb sorted hsel.symm hsel_ne moves hall (sorted.verdict_partial hsome hne)

/-! ### LOWER_GROUP -/

section LowerGroup

variable {s : State} {tag mask : BitVec 4} {sel low : List Rail}

/-- A child that blocks the group: outside it, and an active child of one of its active rails (R70). -/
theorem blocks_iff {x : Rail} (hl : low = sel.filter (fun r => (s.rail r).state.active)) :
    (!sel.contains x && (s.rail x).state.active && sel.any (fun r => (s.rail r).state.active && (s.rail x).cfg.names r)) = true
      ↔ x ∉ sel ∧ ∃ r ∈ low, s.childActive r x := by
  subst hl
  simp only [Bool.and_eq_true, Bool.not_eq_true', List.contains_eq_mem, decide_eq_false_iff_not, List.any_eq_true, List.mem_filter,
    State.childActive, mem_parents]
  constructor
  · rintro ⟨⟨hx, hax⟩, r, hr, har, hn⟩
    exact ⟨hx, r, ⟨hr, har⟩, hn, hax⟩
  · rintro ⟨hx, r, ⟨hr, har⟩, hn, hax⟩
    exact ⟨⟨hx, hax⟩, r, hr, har, hn⟩

theorem blockingChild_eq_some {x : Rail} (hl : low = sel.filter (fun r => (s.rail r).state.active)) (hx : x ∉ sel) (hc : ∃ r ∈ low, s.childActive r x)
    (hmin : ∀ y : Rail, y < x → y ∉ sel → ¬ ∃ r ∈ low, s.childActive r y) : blockingChild s sel = some x := by
  refine lowestRail_eq_some.mpr ⟨(blocks_iff hl).mpr ⟨hx, hc⟩, fun y hy => ?_⟩
  rw [← Bool.not_eq_true, blocks_iff hl]
  exact fun ⟨hy', hcy⟩ => hmin y hy hy' hcy

theorem blockingChild_eq_none (hl : low = sel.filter (fun r => (s.rail r).state.active)) (h : ∀ x : Rail, x ∉ sel → ¬ ∃ r ∈ low, s.childActive r x) :
    blockingChild s sel = none := by
  refine lowestRail_eq_none.mpr fun x => ?_
  rw [← Bool.not_eq_true, blocks_iff hl]
  exact fun ⟨hx, hc⟩ => h x hx hc

theorem groupLower_emptyGroup (hs : s.selected tag mask = []) : groupLower tag mask s = (.plain .emptyGroup, Delta.of s) := by
  simp only [groupLower, hs]

theorem groupLower_childActive {x : Rail} (hs : s.selected tag mask = sel) (hne : sel ≠ []) (hb : blockingChild s sel = some x) :
    groupLower tag mask s = ({ code := .childActive, detail := railByte x }, Delta.of s) := by
  obtain ⟨r, l, rfl⟩ := List.exists_cons_of_ne_nil hne
  simp only [groupLower, hs, hb]

theorem groupLower_already (hs : s.selected tag mask = sel) (hne : sel ≠ []) (hl : sel.filter (fun r => (s.rail r).state.active) = [])
    (hb : blockingChild s sel = none) : groupLower tag mask s = (.plain .already, Delta.of s) := by
  obtain ⟨r, l, rfl⟩ := List.exists_cons_of_ne_nil hne
  simp only [groupLower, hs, hb, hl]

/-- Every active rail of the group lowered (R70). -/
theorem groupLower_lowers (hs : s.selected tag mask = sel) (hl : low = sel.filter (fun r => (s.rail r).state.active)) (hne : low ≠ [])
    (hb : blockingChild s sel = none) :
    groupLower tag mask s = ({ code := .accepted, detail := byte low.length }, movedDelta s low (fun r => (s.rail r).lowered s.now)) := by
  have hn : low.Nodup := by
    rw [hl, ← hs]
    exact ((List.nodup_finRange 16).filter _).filter _
  have moved := foldl_moves hn (fun r _ => doLower_moves s r)
  have sel_ne : sel ≠ [] := fun h => hne (by rw [hl, h]; rfl)
  obtain ⟨y, l', hsel⟩ := List.exists_cons_of_ne_nil sel_ne
  rw [← moved]
  rw [hsel] at hl hb hs
  simp only [groupLower, hs, hb, ← hl]

end LowerGroup

/-- Settles O25: the lowest child that blocks is the first answer, else the active rails are lowered together. -/
theorem lowerGroupAllOrNothing : Obligations.LowerGroupAllOrNothing := by
  intro s hr
  refine ⟨fun h => (exec_refused (exec_lowerGroup s) hr (groupCommand_badArgument (s := setCmd 0x05 s) h) rfl :), fun tag mask ha hb sel low hsel hlow => ?_⟩
  have kept {v : Verdict} (h : groupLower tag mask (setCmd 0x05 s) = (v, Delta.of (setCmd 0x05 s))) : hostLowerGroup (setCmd 0x05 s) = (v, setCmd 0x05 s) :=
    (groupCommand_of (s := setCmd 0x05 s) ha hb h).trans (congrArg _ (finish_of _))
  refine ⟨fun hnil => ?_, fun x hx hc hmin => ?_, fun hne hnil => ?_, fun hne hfree hu => ?_⟩
  · exact (exec_refused (exec_lowerGroup s) hr (kept (groupLower_emptyGroup (s := setCmd 0x05 s) (hsel.symm.trans hnil))) rfl :)
  · have hne : sel ≠ [] := fun hn => by
      obtain ⟨r, hmem, -⟩ := hc
      rw [hlow, hn] at hmem
      cases hmem
    have blocked := groupLower_childActive (s := setCmd 0x05 s) hsel.symm hne (blockingChild_eq_some (s := setCmd 0x05 s) hlow hx hc hmin)
    exact (exec_refused (exec_lowerGroup s) hr (kept blocked) rfl :)
  · have free := blockingChild_eq_none (s := setCmd 0x05 s) hlow (by simp [hnil])
    have already := groupLower_already (s := setCmd 0x05 s) hsel.symm hne (hlow.symm.trans hnil) free
    exact (exec_done (exec_lowerGroup s) hr (kept already) rfl :)
  · have free := blockingChild_eq_none (s := setCmd 0x05 s) hlow hfree
    have lowers := groupLower_lowers (s := setCmd 0x05 s) hsel.symm hlow hne free
    have handed := (finish_movedDelta (s := setCmd 0x05 s) (c := fun r => (s.rail r).lowered s.now) hu).trans (told_setCmd 0x05 (s.mapRails low _) _)
    exact (exec_answered (exec_lowerGroup s) hr ((groupCommand_of (s := setCmd 0x05 s) ha hb lowers).trans (congrArg _ handed)) :)

end Sys2Proof.Machine
end

section
/-! PROOFS. Arrivals and the expiries of a rail (R18, R20, R23, R24, R26 to R29, R33 to R36, R46 to R53, R187). Each is a transition of one channel, told
by one equation, and what the part makes of it follows from whether the rail moved (`finish_kept`, `finish_moved`, `finish_told_decls`). -/

namespace Sys2Proof.Machine

/-! ### A rail event handed on -/

section Handed

variable {r : Rail} {f : RailStep → RailStep} {s : State} {c : RailChan}

theorem logDecls_elsewhere (r : Rail) (l : List Decl) (s : State) : s.SameElsewhere (logDecls r l s) :=
  .foldl (fun t _ => .logFault _ _ t) l s

/-- An event that moves its rail, which no step waits on: its records, and its change handed on. -/
theorem finish_told_decls (hc : (f (.of (s.rail r))).ownCut = false) (hm : (f (.of (s.rail r))).moved = true) (hu : s.unawaited r = true) :
    finish (onRail r f (Delta.of s)) =
      (if (f (.of (s.rail r))).entered && (f (.of (s.rail r))).rc.cfg.shedMember then setShed else id)
        ((logDecls r (f (.of (s.rail r))).decls (s.setRail r (f (.of (s.rail r))).rc)).told (RailSet.add 0 r)) := by
  have elsewhere := logDecls_elsewhere r (f (.of (s.rail r))).decls (s.setRail r (f (.of (s.rail r))).rc)
  show finish (commit r (f (.of (s.rail r))) (Delta.of s)) = _
  rw [commit_of_uncut hc, finish_told _ rfl]
  · rw [hm]
    by_cases hs : ((f (.of (s.rail r))).entered && (f (.of (s.rail r))).rc.cfg.shedMember) = true
    · rw [if_pos hs]
      exact if_pos (show (false || _) = true from hs)
    · rw [if_neg hs]
      exact if_neg (show ¬ (false || _) = true from hs)
  · intro x hx
    have hxr : x = r := by
      rw [hm] at hx
      simpa [Delta.of, has_add, @eq_comm _ r] using hx
    subst hxr
    exact (unawaited_congr (congrArg Engine.run elsewhere.engine) elsewhere.store x).trans hu

/-- An event that changes its channel without a move or a declaration. -/
theorem finish_kept (h : f (.of (s.rail r)) = .of c) : finish (onRail r f (Delta.of s)) = s.setRail r c := by
  rw [finish_onRail_unmoved (by rw [h]; rfl) (by rw [h]; rfl) (by rw [h]; rfl), h]
  rfl

/-- An event that moves its rail, which no step waits on, without a declaration. -/
theorem finish_moved {c0 : RailChan} (h : f (.of (s.rail r)) = (RailStep.of c0).move c) (hu : s.unawaited r = true) :
    finish (onRail r f (Delta.of s)) = s.changedRail r c := by
  rw [finish_told_decls (by rw [h]; rfl) (by rw [h]; rfl) hu, h]
  rfl

end Handed

theorem setRail_setRail (s : State) (r : Rail) (c c' : RailChan) : (s.setRail r c).setRail r c' = s.setRail r c' := by
  simp [State.setRail]

/-! ### Zone arrivals -/

section ZoneArrival

variable {s : State} {r : Rail} {z : Zone} {mv : Nat} {c : RailChan}

theorem exec_zoneArrival (hr : s.pins.inReset = false) (hmay : (s.rail r).mayReportZone z mv = true) (hz : (s.rail r).zone ≠ z) :
    exec (.zoneArrival r z mv) s = .next (finish (onRail r (takeZone s.now z) (Delta.of (s.senseVoltage r mv)))) := by
  show Host.Outcome.next (zoneArrival r z mv s) = _
  rw [zoneArrival, if_neg (by simp [hr]), if_neg (by simp [hmay]), if_neg hz]

/-- The channel judges an arrival with what its front end saw and remembers (R28, R187). -/
theorem takeZone_saw (s : State) (r : Rail) (z : Zone) (mv : Nat) :
    takeZone s.now z (.of ((s.senseVoltage r mv).rail r)) = railZoneArrival s.now (.of ((s.rail r).saw z mv)) := by
  have sensed : (s.senseVoltage r mv).rail r = { s.rail r with senseMv := mv } := by simp [State.senseVoltage]
  rw [sensed]
  rfl

/-- An arrival that changes the channel alone. -/
theorem exec_zoneArrival_kept (hr : s.pins.inReset = false) (hmay : (s.rail r).mayReportZone z mv = true) (hz : (s.rail r).zone ≠ z)
    (h : railZoneArrival s.now (.of ((s.rail r).saw z mv)) = .of c) : exec (.zoneArrival r z mv) s = .next (s.setRail r c) := by
  rw [exec_zoneArrival hr hmay hz, finish_kept ((takeZone_saw s r z mv).trans h)]
  exact congrArg _ (setRail_setRail s r _ c)

/-- An arrival that moves a rail which no step waits on. -/
theorem exec_zoneArrival_moved {c0 : RailChan} (hr : s.pins.inReset = false) (hmay : (s.rail r).mayReportZone z mv = true) (hz : (s.rail r).zone ≠ z)
    (hu : s.unawaited r = true) (h : railZoneArrival s.now (.of ((s.rail r).saw z mv)) = (RailStep.of c0).move c) :
    exec (.zoneArrival r z mv) s = .next (s.changedRail r c) := by
  rw [exec_zoneArrival hr hmay hz, finish_moved ((takeZone_saw s r z mv).trans h) ((unawaited_congr rfl rfl r).trans hu)]
  exact congrArg (fun t : State => Host.Outcome.next (t.told (RailSet.add 0 r))) (setRail_setRail s r _ c)

end ZoneArrival

/-! ### The zone judged by state -/

section Judged

variable {now : Uptime} {c : RailChan}

theorem not_all_of_and {a b d : Bool} (h : (a && b && d) = false) : ¬ (a = true ∧ b = true ∧ d = true) := by
  rintro ⟨rfl, rfl, rfl⟩
  cases h

theorem judgeRamping_good {e : RailStep} (hz : e.rc.zone = .good) :
    judgeRamping now e = if e.rc.cfg.settleTime = 0 then enterOn e else e.withRc { e.rc with settleT := startTimer now e.rc.cfg.settleTime } := by
  unfold judgeRamping
  split
  case h_1 => rfl
  all_goals rename_i h; exact absurd (hz.symm.trans h) (by decide)

theorem judgeRamping_high {e : RailStep} (hz : e.rc.zone = .high) :
    judgeRamping now e = declareOv now (e.withRc { e.rc with settleT := none }) := by
  unfold judgeRamping
  split
  case h_2 => rfl
  all_goals rename_i h; exact absurd (hz.symm.trans h) (by decide)

theorem judgeRamping_below {e : RailStep} (hz : e.rc.zone = .zero ∨ e.rc.zone = .low) :
    judgeRamping now e = e.withRc { e.rc with settleT := none } := by
  unfold judgeRamping
  split
  case h_3 | h_4 => rfl
  all_goals rename_i h; rw [h] at hz; simp at hz

theorem judgeOn_good {e : RailStep} (hz : e.rc.zone = .good) : judgeOn now e = e.withRc { e.rc with uvT := none } := by
  unfold judgeOn
  split
  case h_1 => rfl
  all_goals rename_i h; exact absurd (hz.symm.trans h) (by decide)

theorem judgeOn_high {e : RailStep} (hz : e.rc.zone = .high) : judgeOn now e = declareOv now (e.withRc { e.rc with uvT := none }) := by
  unfold judgeOn
  split
  case h_2 => rfl
  all_goals rename_i h; exact absurd (hz.symm.trans h) (by decide)

theorem judgeOn_below {e : RailStep} (hz : e.rc.zone = .zero ∨ e.rc.zone = .low) : judgeOn now e = startUv now e := by
  unfold judgeOn
  split
  case h_3 | h_4 => rfl
  all_goals rename_i h; rw [h] at hz; simp at hz

/-- OV that is not in the set or not armed is not declared (R34). -/
theorem declareOv_quiet (h : (c.cfg.detect.ov && c.armOv) = false) : declareOv now (.of c) = .of c := by
  refine if_neg ?_
  rintro ⟨h1, h2⟩
  exact absurd h (by simp [show c.cfg.detect.ov = true from h1, show c.armOv = true from h2])

theorem judgeRamping_cancels (h : c.zone = .zero ∨ c.zone = .low ∨ (c.zone = .high ∧ (c.cfg.detect.ov && c.armOv) = false)) :
    judgeRamping now (.of c) = .of { c with settleT := none } := by
  rcases h with hz | hz | ⟨hz, hq⟩
  · exact judgeRamping_below (.inl hz)
  · exact judgeRamping_below (.inr hz)
  · exact (judgeRamping_high hz).trans (declareOv_quiet (c := { c with settleT := none }) hq)

theorem judgeOn_cancels (h : c.zone = .good ∨ (c.zone = .high ∧ (c.cfg.detect.ov && c.armOv) = false)) :
    judgeOn now (.of c) = .of { c with uvT := none } := by
  rcases h with hz | ⟨hz, hq⟩
  · exact judgeOn_good hz
  · exact (judgeOn_high hz).trans (declareOv_quiet (c := { c with uvT := none }) hq)

theorem startUv_quiet (h : (c.cfg.detect.uv && c.armUv && c.uvT.isNone) = false) : startUv now (.of c) = .of c :=
  if_neg fun ⟨h1, h2, h3⟩ => not_all_of_and h ⟨h1, h2, Option.isNone_iff_eq_none.mpr h3⟩

theorem startUv_starts (h : (c.cfg.detect.uv && c.armUv && c.uvT.isNone) = true) (ht : c.cfg.filterTime ≠ 0) :
    startUv now (.of c) = .of { c with uvT := startTimer now c.cfg.filterTime } := by
  obtain ⟨⟨h1, h2⟩, h3⟩ : (c.cfg.detect.uv = true ∧ c.armUv = true) ∧ c.uvT = none := by simpa using h
  exact (if_pos ⟨h1, h2, h3⟩).trans (if_neg ht)

theorem startOc_quiet (h : (c.cfg.detect.oc && c.armOc && c.ocT.isNone) = false) : startOc now (.of c) = .of c :=
  if_neg fun ⟨h1, h2, h3⟩ => not_all_of_and h ⟨h1, h2, Option.isNone_iff_eq_none.mpr h3⟩

theorem startOc_of_idle (h : (c.cfg.detect.oc && c.armOc && c.ocT.isNone) = true) : startOc now (.of c) =
    if c.cfg.filterTime = 0 then declareOwn now .oc (.of c) else .of { c with ocT := startTimer now c.cfg.filterTime } := by
  obtain ⟨⟨h1, h2⟩, h3⟩ : (c.cfg.detect.oc = true ∧ c.armOc = true) ∧ c.ocT = none := by simpa using h
  exact if_pos ⟨h1, h2, h3⟩

theorem startBackfeed_quiet (h : (c.cfg.detect.backfeed && c.armBackfeed && c.backfeedT.isNone) = false) : startBackfeed now (.of c) = .of c :=
  if_neg fun ⟨h1, h2, h3⟩ => not_all_of_and h ⟨h1, h2, Option.isNone_iff_eq_none.mpr h3⟩

theorem startBackfeed_starts (h : (c.cfg.detect.backfeed && c.armBackfeed && c.backfeedT.isNone) = true) (ht : c.cfg.filterTime ≠ 0) :
    startBackfeed now (.of c) = .of { c with backfeedT := startTimer now c.cfg.filterTime } := by
  obtain ⟨⟨h1, h2⟩, h3⟩ : (c.cfg.detect.backfeed = true ∧ c.armBackfeed = true) ∧ c.backfeedT = none := by simpa using h
  exact (if_pos ⟨h1, h2, h3⟩).trans (if_neg ht)

/-- The entry into OFF at ZERO (R22, R23, R26). -/
theorem enterOff_of_zero {c0 : RailChan} (hz : c.zone = .zero) : enterOff now ((RailStep.of c0).withRc c) = (RailStep.of c0).move c.wentOff :=
  if_pos (c := (((RailStep.of c0).withRc c).move c.wentOff).rc.zone = .zero) hz

end Judged

section States

variable {now : Uptime} {c : RailChan}

theorem railZoneArrival_ramping (hs : c.state = .ramping) : railZoneArrival now (.of c) = judgeRamping now (.of (rearmByZone c)) := by
  have state : (RailStep.of c).rc.state = _ := hs
  simp only [railZoneArrival, state]
  rfl

theorem railZoneArrival_on (hs : c.state = .on) : railZoneArrival now (.of c) = judgeOn now (.of (rearmByZone c)) := by
  have state : (RailStep.of c).rc.state = _ := hs
  simp only [railZoneArrival, state]
  rfl

theorem railZoneArrival_unused (hs : c.state = .unused) : railZoneArrival now (.of c) = .of c := by
  have state : (RailStep.of c).rc.state = _ := hs
  simp only [railZoneArrival, state]

theorem railZoneArrival_off (hs : c.state = .off) : railZoneArrival now (.of c) = arriveOff now (.of c) := by
  have state : (RailStep.of c).rc.state = _ := hs
  simp only [railZoneArrival, state]

theorem railZoneArrival_lowering (hs : c.state = .lowering) : railZoneArrival now (.of c) = judgeLowering now (.of c) := by
  have state : (RailStep.of c).rc.state = _ := hs
  simp only [railZoneArrival, state]

theorem railZoneArrival_cut (hs : c.state = .faulted ∨ c.state = .locked) : railZoneArrival now (.of c) = judgeCut now (.of c) := by
  rcases hs with hs | hs
  all_goals
    have state : (RailStep.of c).rc.state = _ := hs
    simp only [railZoneArrival, state]

end States

/-- Settles O51: the zone judged in RAMPING and in ON, after the arms that it sets. -/
theorem zoneArrivalWhileActive : Obligations.ZoneArrivalWhileActive := by
  intro s r z mv c hr hmay hz hu hc
  have hc : c = rearmByZone ((s.rail r).saw z mv) := hc
  have zone : c.zone = z := by rw [hc]; rfl
  have ramping (hs : (s.rail r).state = .ramping) : railZoneArrival s.now (.of ((s.rail r).saw z mv)) = judgeRamping s.now (.of c) := by
    rw [railZoneArrival_ramping (c := (s.rail r).saw z mv) hs, hc]
  have on (hs : (s.rail r).state = .on) : railZoneArrival s.now (.of ((s.rail r).saw z mv)) = judgeOn s.now (.of c) := by
    rw [railZoneArrival_on (c := (s.rail r).saw z mv) hs, hc]
  refine ⟨fun hs hg ht => ?_, fun hs hg ht => ?_, fun hs hq => ?_, fun hs hq => ?_, fun hs hq => ⟨fun hk => ?_, fun hk ht => ?_⟩⟩
  · exact exec_zoneArrival_kept hr hmay hz ((ramping hs).trans ((judgeRamping_good (zone.trans hg)).trans (if_neg ht)))
  · exact exec_zoneArrival_moved hr hmay hz hu ((ramping hs).trans ((judgeRamping_good (zone.trans hg)).trans (if_pos ht)))
  · rw [← zone] at hq
    exact exec_zoneArrival_kept hr hmay hz ((ramping hs).trans (judgeRamping_cancels hq))
  · rw [← zone] at hq
    exact exec_zoneArrival_kept hr hmay hz ((on hs).trans (judgeOn_cancels hq))
  · rw [← zone] at hq
    exact exec_zoneArrival_kept hr hmay hz (((on hs).trans (judgeOn_below hq)).trans (startUv_quiet hk))
  · rw [← zone] at hq
    exact exec_zoneArrival_kept hr hmay hz (((on hs).trans (judgeOn_below hq)).trans (startUv_starts hk ht))

/-- The end of the discharge phase (R46, R50). -/
theorem endDischarge_eq (now : Uptime) (c : RailChan) :
    endDischarge now c = { c with discharging := false, dis := false, dischargeT := none
                                  retryT := if c.state = .faulted then startTimer now (10 * c.cfg.retryInterval) else c.retryT } := by
  by_cases h : c.state = .faulted
  · rw [if_pos h]; exact if_pos h
  · rw [if_neg h]; exact if_neg h

/-- Settles O52: the zone judged in the states in which no rail is up. -/
theorem zoneArrivalWhileDown : Obligations.ZoneArrivalWhileDown := by
  intro s r z mv c hr hmay hz hu hc
  have zone : c.zone = z := by rw [hc]; rfl
  have state : c.state = (s.rail r).state := by rw [hc]; rfl
  have kept {c' : RailChan} (h : railZoneArrival s.now (.of c) = .of c') : exec (.zoneArrival r z mv) s = .next (s.setRail r c') :=
    exec_zoneArrival_kept hr hmay hz (hc ▸ h)
  have above (h0 : z ≠ .zero) : c.zone ≠ .zero := fun h => h0 (zone.symm.trans h)
  rw [← state]
  refine ⟨fun hs => ?_, fun hs => ⟨fun h0 => ?_, fun h0 hq => ?_, fun h0 hq ht => ?_⟩, fun hs => ⟨fun h0 => ?_, fun h0 => ?_⟩,
    fun hs hd => ⟨fun h0 => ?_, fun h0 => ?_⟩, fun hs hd => ?_, fun hs hd ht h0 => ?_⟩
  · exact kept (railZoneArrival_unused hs)
  · exact kept ((railZoneArrival_off hs).trans (if_pos (zone.trans h0)))
  · exact kept (((railZoneArrival_off hs).trans (if_neg (above h0))).trans (startBackfeed_quiet hq))
  · exact kept (((railZoneArrival_off hs).trans (if_neg (above h0))).trans (startBackfeed_starts hq ht))
  · exact kept ((railZoneArrival_lowering hs).trans (if_neg (above h0)))
  · refine exec_zoneArrival_moved (c0 := c) hr hmay hz hu ?_
    rw [← hc]
    exact ((railZoneArrival_lowering hs).trans (if_pos (zone.trans h0))).trans (enterOff_of_zero (c0 := c) (zone.trans h0))
  · exact kept ((railZoneArrival_cut hs).trans ((if_pos hd).trans (if_neg (above h0))))
  · refine kept ((railZoneArrival_cut hs).trans ((if_pos hd).trans ((if_pos (zone.trans h0)).trans ?_)))
    exact congrArg (RailStep.of c).withRc (endDischarge_eq s.now c)
  · exact kept ((railZoneArrival_cut (.inr hs)).trans ((if_neg (by simp [RailStep.of, hd])).trans (if_neg (by simp [RailStep.of, hs]))))
  · exact kept ((railZoneArrival_cut (.inl hs)).trans ((if_neg (by simp [RailStep.of, hd])).trans (if_pos ⟨hs, ht, above h0⟩)))

end Sys2Proof.Machine
end

section
/-! PROOFS. Over-current arrivals (R29, R36), and the front end, which no event but its own arrivals changes (`SameFront`): a report given within a band
is not gone back on within it (R187). -/

namespace Sys2Proof.Machine

/-! ### Over-current arrivals -/

section FlagArrival

variable {s : State} {r : Rail} {b : Bool} {ma : Nat} {c : RailChan}

theorem exec_overCurrentArrival (hr : s.pins.inReset = false) (hmay : (s.rail r).mayReportFlag b ma = true) (hb : (s.rail r).overCurrent ≠ b) :
    exec (.overCurrentArrival r b ma) s = .next (finish (onRail r (takeFlag s.now b) (Delta.of (s.senseCurrent r ma)))) := by
  show Host.Outcome.next (overCurrentArrival r b ma s) = _
  rw [overCurrentArrival, if_neg (by simp [hr]), if_neg (by simp [hmay]), if_neg hb]

/-- The channel judges an arrival with what its front end saw and remembers (R29, R187). -/
theorem takeFlag_saw (s : State) (r : Rail) (b : Bool) (ma : Nat) :
    takeFlag s.now b (.of ((s.senseCurrent r ma).rail r)) = railOverCurrent s.now (.of ((s.rail r).sawFlag b ma)) := by
  have sensed : (s.senseCurrent r ma).rail r = { s.rail r with senseMa := ma } := by simp [State.senseCurrent]
  rw [sensed]
  rfl

theorem railOverCurrent_of_inactive {now : Uptime} (h : c.state.active = false) : railOverCurrent now (.of c) = .of c :=
  if_neg (by simp [RailStep.of, h])

theorem railOverCurrent_of_active {now : Uptime} (h : c.state.active = true) : railOverCurrent now (.of c) =
    if c.overCurrent = true then startOc now (.of c) else .of { c with ocT := none, armOc := true } :=
  if_pos h

end FlagArrival

/-! ### The front end -/

/-- The parts of a channel that its front end and WRITE_RAIL alone change: the record, the zone, the flag, and what is remembered of reports. -/
structure RailChan.SameFront (a b : RailChan) : Prop where
  cfg : b.cfg = a.cfg
  zone : b.zone = a.zone
  overCurrent : b.overCurrent = a.overCurrent
  bands : b.bands = a.bands

namespace RailChan.SameFront

theorem refl (a : RailChan) : a.SameFront a := ⟨rfl, rfl, rfl, rfl⟩

theorem trans {a b c : RailChan} (h : a.SameFront b) (h' : b.SameFront c) : a.SameFront c :=
  ⟨h'.cfg.trans h.cfg, h'.zone.trans h.zone, h'.overCurrent.trans h.overCurrent, h'.bands.trans h.bands⟩

theorem disarm (k : FaultKind) (c : RailChan) : c.SameFront (disarm k c) := by
  cases k <;> exact ⟨rfl, rfl, rfl, rfl⟩

theorem latched_cut (now : Uptime) (st : RailState) (k : FaultKind) (c : RailChan) : c.SameFront (latch k (cutTo now st c)) := by
  rw [latch_cutTo]
  exact ⟨rfl, rfl, rfl, rfl⟩

end RailChan.SameFront

/-- A transition of a channel that leaves its front end alone. -/
def RailStep.KeepsFront (e e' : RailStep) : Prop := e.rc.SameFront e'.rc

namespace RailStep.KeepsFront

variable {e : RailStep} {now : Uptime}

theorem refl (e : RailStep) : e.KeepsFront e := RailChan.SameFront.refl _

theorem trans {e' e'' : RailStep} (h : e.KeepsFront e') (h' : e'.KeepsFront e'') : e.KeepsFront e'' := RailChan.SameFront.trans h h'

theorem declareOwn (now : Uptime) (k : FaultKind) (e : RailStep) : e.KeepsFront (declareOwn now k e) := by
  unfold Machine.declareOwn
  split
  · exact .disarm k e.rc
  · exact .latched_cut now _ k e.rc

theorem startOc (now : Uptime) (e : RailStep) : e.KeepsFront (startOc now e) := by
  unfold Machine.startOc
  split_ifs
  · exact .declareOwn now _ e
  · exact ⟨rfl, rfl, rfl, rfl⟩
  · exact .refl e

theorem startUv (now : Uptime) (e : RailStep) : e.KeepsFront (startUv now e) := by
  unfold Machine.startUv
  split_ifs
  · exact .declareOwn now _ e
  · exact ⟨rfl, rfl, rfl, rfl⟩
  · exact .refl e

theorem declareExt (now : Uptime) (e : RailStep) : e.KeepsFront (declareExt now e) := by
  unfold Machine.declareExt
  split
  · exact .declareOwn now _ e
  · exact .refl e

theorem declareOv (now : Uptime) (e : RailStep) : e.KeepsFront (declareOv now e) := by
  unfold Machine.declareOv
  split
  · exact .declareOwn now _ e
  · exact .refl e

theorem startBackfeed (now : Uptime) (e : RailStep) : e.KeepsFront (startBackfeed now e) := by
  unfold Machine.startBackfeed
  split_ifs
  · exact ⟨rfl, rfl, rfl, rfl⟩
  · exact ⟨rfl, rfl, rfl, rfl⟩
  · exact .refl e

theorem judgeRamping (now : Uptime) (e : RailStep) : e.KeepsFront (judgeRamping now e) := by
  unfold Machine.judgeRamping
  split
  · split <;> exact ⟨rfl, rfl, rfl, rfl⟩
  · exact trans (e' := e.withRc { e.rc with settleT := none }) ⟨rfl, rfl, rfl, rfl⟩ (.declareOv now _)
  · exact ⟨rfl, rfl, rfl, rfl⟩
  · exact ⟨rfl, rfl, rfl, rfl⟩

theorem judgeOn (now : Uptime) (e : RailStep) : e.KeepsFront (judgeOn now e) := by
  unfold Machine.judgeOn
  split
  · exact ⟨rfl, rfl, rfl, rfl⟩
  · exact trans (e' := e.withRc { e.rc with uvT := none }) ⟨rfl, rfl, rfl, rfl⟩ (.declareOv now _)
  · exact .startUv now e
  · exact .startUv now e

theorem enterOff (now : Uptime) (e : RailStep) : e.KeepsFront (enterOff now e) := by
  refine trans (e' := e.move (offChannel e.rc)) ⟨rfl, rfl, rfl, rfl⟩ ?_
  unfold Machine.enterOff judgeOff
  split
  · exact .refl _
  · exact .startBackfeed now _

theorem enterLowering (now : Uptime) (e : RailStep) : e.KeepsFront (enterLowering now e) := by
  unfold Machine.enterLowering
  dsimp only
  split
  · exact trans (e' := e.move { cancelActiveTimers e.rc with
      state := .lowering, en := false, dis := true, dischargeT := startTimer now (10 * e.rc.cfg.dischargeLimit) }) ⟨rfl, rfl, rfl, rfl⟩ (.enterOff now _)
  · exact ⟨rfl, rfl, rfl, rfl⟩

theorem enterRamping (now : Uptime) (xf : Bool) (e : RailStep) : e.KeepsFront (enterRamping now xf e) := by
  have flag (e : RailStep) : e.KeepsFront (judgeFlagAtEntry now e) := by
    unfold judgeFlagAtEntry
    split
    · exact .startOc now e
    · exact .refl e
  have input (e : RailStep) : e.KeepsFront (judgeInputAtEntry now xf e) := by
    unfold judgeInputAtEntry
    split
    · exact .declareExt now e
    · exact .refl e
  exact trans (e' := e.move (rampingChannel now e.rc)) ⟨rfl, rfl, rfl, rfl⟩ (((RailStep.KeepsFront.judgeRamping now _).trans (flag _)).trans (input _))

theorem judgeCut (now : Uptime) (e : RailStep) : e.KeepsFront (judgeCut now e) := by
  unfold Machine.judgeCut
  split_ifs
  · show e.rc.SameFront (endDischarge now e.rc)
    rw [endDischarge_eq]
    exact ⟨rfl, rfl, rfl, rfl⟩
  · exact .refl e
  · exact ⟨rfl, rfl, rfl, rfl⟩
  · exact .refl e

theorem railZoneArrival (now : Uptime) (e : RailStep) : e.KeepsFront (railZoneArrival now e) := by
  unfold Machine.railZoneArrival
  split
  · exact .refl e
  · unfold arriveOff
    split
    · exact ⟨rfl, rfl, rfl, rfl⟩
    · exact .startBackfeed now e
  · exact trans (e' := e.withRc (rearmByZone e.rc)) ⟨rfl, rfl, rfl, rfl⟩ (.judgeRamping now _)
  · exact trans (e' := e.withRc (rearmByZone e.rc)) ⟨rfl, rfl, rfl, rfl⟩ (.judgeOn now _)
  · unfold judgeLowering
    split
    · exact .enterOff now e
    · exact .refl e
  · exact .judgeCut now e
  · exact .judgeCut now e

theorem railOverCurrent (now : Uptime) (e : RailStep) : e.KeepsFront (railOverCurrent now e) := by
  unfold Machine.railOverCurrent
  split_ifs
  · exact .startOc now e
  · exact ⟨rfl, rfl, rfl, rfl⟩
  · exact .refl e

end RailStep.KeepsFront

/-- No act of a command or a cascade touches a front end. -/
theorem RailAct.sameFront {a b : RailChan} (h : RailAct a b) : a.SameFront b := by
  cases h with
  | raise now xf _ => exact RailStep.KeepsFront.trans (e := .of a) (e' := (RailStep.of a).withRc { a with retries := 0 }) ⟨rfl, rfl, rfl, rfl⟩ (.enterRamping now xf _)
  | lower now _ => exact RailStep.KeepsFront.enterLowering now (RailStep.of a)
  | clear now _ => exact RailStep.KeepsFront.trans (e := .of a) (e' := (RailStep.of a).withRc { a with latched := 0, firstKind := none }) ⟨rfl, rfl, rfl, rfl⟩ (.enterOff now _)
  | cascade now _ => exact .latched_cut now .locked .cascade a

/-- The front end of a rail after its own event is what the event made of it. -/
theorem finish_onRail_front (r : Rail) (f : RailStep → RailStep) (s : State) :
    (f (.of (s.rail r))).rc.SameFront ((finish (onRail r f (Delta.of s))).rail r) := by
  have own : (f (.of (s.rail r))).rc.SameFront ((onRail r f (Delta.of s)).s.rail r) := by
    show RailChan.SameFront _ ((commit r (f (.of (s.rail r))) (Delta.of s)).s.rail r)
    rw [commit_rail, if_pos rfl]
    split
    · exact .latched_cut _ _ _ _
    · exact .refl _
  exact own.trans ((finish_rails _ r).keeps (fun c => ((onRail r f (Delta.of s)).s.rail r).SameFront c) (fun _ _ ha h => h.trans ha.sameFront) (.refl _))

theorem exec_inReset {c : Instr} {s t : State} (h : exec c s = .next t) (hc : Instr.ordinary c) : t.pins.inReset = s.pins.inReset := by
  have deeds := exec_deeds h hc
  clear h
  induction deeds with
  | refl => rfl
  | tail _ hd ih => exact hd.inReset.trans ih

/-! ### Reports within a band -/

/-- A flag reported within the band is remembered, and not gone back on within it (R187). -/
theorem mayReportFlag_back {c c' : RailChan} {b : Bool} {ma ma' : Nat} (hb : c.overCurrent ≠ b) (hin : withinLimitBand c.cfg ma = true)
    (hin' : withinLimitBand c.cfg ma' = true) (hc : (c.sawFlag b ma).SameFront c') : c'.mayReportFlag (!b) ma' = false := by
  have cfg : c'.cfg = c.cfg := hc.cfg
  have flag : c'.overCurrent = b := hc.overCurrent
  have limit : c'.bands.limit = true := by
    rw [hc.bands]
    show noteCross (c.overCurrent == b) c.bands.limit (withinLimitBand c.cfg ma) = true
    simp [noteCross, hin, hb]
  simp [RailChan.mayReportFlag, mayCross, cfg, flag, limit, hin']

/-- A zone reported across a level within its band is remembered, and the level is not crossed again within it (R187). -/
theorem mayReportZone_back {c c' : RailChan} {l : Level} {z z' : Zone} {mv mv' : Nat} (hz : zoneAbove c.zone l ≠ zoneAbove z l)
    (hz' : zoneAbove z' l ≠ zoneAbove z l) (hin : withinBand (c.cfg.level l) mv = true) (hin' : withinBand (c.cfg.level l) mv' = true)
    (hc : (c.saw z mv).SameFront c') : c'.mayReportZone z' mv' = false := by
  have cfg : c'.cfg = c.cfg := hc.cfg
  have zone : c'.zone = z := hc.zone
  have across : c'.bands.across l = true := by
    rw [hc.bands]
    have noted : noteCross (zoneAbove c.zone l == zoneAbove z l) (c.bands.across l) (withinBand (c.cfg.level l) mv) = true := by
      simp [noteCross, hin, hz]
    cases l <;> exact noted
  have crossed : mayCross (zoneAbove c'.zone l == zoneAbove z' l) (c'.bands.across l) (withinBand (c'.cfg.level l) mv') = false := by
    simp [mayCross, zone, cfg, across, hin', Ne.symm hz']
  cases l <;> simp [RailChan.mayReportZone, crossed]

/-- Settles O54: the filter by the flag that arrives; a report back by what the front end remembers. -/
theorem overCurrentArrivalFilters : Obligations.OverCurrentArrivalFilters := by
  refine ⟨fun s r b ma c hr hmay hb hc => ?_, fun s r b ma ma' hr hmay hb hin hin' t ht => ?_, fun s r l z z' mv mv' hr hmay hz hz' hin hin' t ht => ?_⟩
  · have flag : c.overCurrent = b := by rw [hc]; rfl
    have kept {c' : RailChan} (h : railOverCurrent s.now (.of c) = .of c') : exec (.overCurrentArrival r b ma) s = .next (s.setRail r c') := by
      rw [exec_overCurrentArrival hr hmay hb, finish_kept ((takeFlag_saw s r b ma).trans (hc ▸ h))]
      exact congrArg _ (setRail_setRail s r _ c')
    refine ⟨fun ha => kept (railOverCurrent_of_inactive ha), fun ha => ⟨fun h0 => ?_, fun h1 hq => ?_, fun h1 hq ht => ?_, fun h1 hq ht hresp => ?_⟩⟩
    · exact kept ((railOverCurrent_of_active ha).trans (if_neg (by simp [flag, h0])))
    all_goals
      have starts : railOverCurrent s.now (.of c) = startOc s.now (.of c) := (railOverCurrent_of_active ha).trans (if_pos (flag.trans h1))
    · exact kept (starts.trans (startOc_quiet hq))
    · exact kept (starts.trans ((startOc_of_idle hq).trans (if_neg ht)))
    · have declares : takeFlag s.now b (.of ((s.senseCurrent r ma).rail r)) = declareOwn s.now .oc (.of c) := by
        rw [takeFlag_saw, ← hc, starts, startOc_of_idle hq, if_pos ht]
      rw [exec_overCurrentArrival hr hmay hb, finish_report (s := s.senseCurrent r ma) declares hresp (by decide)]
      exact congrArg (fun t : State => Host.Outcome.next (logRail r .oc c.state none t)) (setRail_setRail s r _ _)
  · have still : t.pins.inReset = false := (exec_inReset ht ⟨by simp, by simp, by simp, by simp⟩).trans hr
    rw [exec_overCurrentArrival hr hmay hb] at ht
    have front := finish_onRail_front r (takeFlag s.now b) (s.senseCurrent r ma)
    rw [takeFlag_saw, Host.Outcome.next.inj ht] at front
    have back := mayReportFlag_back hb hin hin' (RailChan.SameFront.trans (RailStep.KeepsFront.railOverCurrent s.now (.of ((s.rail r).sawFlag b ma))) front)
    show Host.Outcome.next (overCurrentArrival r (!b) ma' t) = _
    rw [overCurrentArrival, if_neg (by simp [still]), if_pos (by simp [back])]
  · have still : t.pins.inReset = false := (exec_inReset ht ⟨by simp, by simp, by simp, by simp⟩).trans hr
    rw [exec_zoneArrival hr hmay (fun h => hz (by rw [h]))] at ht
    have front := finish_onRail_front r (takeZone s.now z) (s.senseVoltage r mv)
    rw [takeZone_saw, Host.Outcome.next.inj ht] at front
    have back := mayReportZone_back hz hz' hin hin' (RailChan.SameFront.trans (RailStep.KeepsFront.railZoneArrival s.now (.of ((s.rail r).saw z mv))) front)
    show Host.Outcome.next (zoneArrival r z' mv' t) = _
    rw [zoneArrival, if_neg (by simp [still]), if_pos (by simp [back])]

end Sys2Proof.Machine
end

section
/-! PROOFS. Expiries that record a fault and keep their rail, or move it without a cut of its own (R24, R27, R32, R33, R35, R36, R47, R48, R51, R52), and the
log's side of them: a record opened at the tail or merged in its place (R149 to R151). -/

namespace Sys2Proof.Machine

/-! ### Records -/

theorem planContext_eq (s : State) :
    s.planContext = s.engine.run.map (fun run => { plan := run.plan, step := if run.phase = .quiet then none else some run.step }) := by
  unfold State.planContext
  split
  · rename_i h
    rw [h]
    rfl
  · rename_i run h
    rw [h]
    split
    all_goals rename_i hp; simp [hp]

/-- A fault of a source without a record opens one (R150). -/
theorem logFault_opens {x : Subject} {c : Option PlanContext} {s : State} (h : ∀ y ∈ s.log.records, y.subject.source ≠ x.source) :
    logFault x c s = recomputeFlt (setFlag .fault (s.setRecords (s.log.records ++ [LogRecord.opened x s.now c]))) := by
  refine if_neg ?_
  simp only [List.any_eq_true, LogRecord.from, beq_iff_eq, not_exists, not_and]
  exact h

/-- A fault of a source with a record merges into it, in its place (R151). -/
theorem logFault_merges {x : Subject} {c : Option PlanContext} {s : State} {l l' : List LogRecord} {y : LogRecord}
    (h : s.log.records = l ++ y :: l') (hy : y.subject.source = x.source) (hn : ∀ z ∈ l ++ l', z.subject.source ≠ x.source) :
    logFault x c s = setFlag .fault (s.setRecords (l ++ y.merge x.firstCode s.now :: l')) := by
  have other (k : List LogRecord) (hk : ∀ z ∈ k, z.subject.source ≠ x.source) :
      k.map (fun z => if z.from x.source then z.merge x.firstCode s.now else z) = k := by
    conv_rhs => rw [← List.map_id k]
    exact List.map_congr_left fun z hz => if_neg (by simpa [LogRecord.from] using hk z hz)
  have found : s.log.records.any (fun z => z.from x.source) = true := by
    rw [List.any_eq_true]
    exact ⟨y, by simp [h], by simpa [LogRecord.from] using hy⟩
  rw [logFault, if_pos found, h, List.map_append, List.map_cons, other l (fun z hz => hn z (by simp [hz])), other l' (fun z hz => hn z (by simp [hz])),
    if_pos (by simpa [LogRecord.from] using hy)]

/-! ### Filter expiries -/

section Expiry

variable {s : State} {r : Rail} {c : RailChan} {now : Uptime}

theorem railUvExpiry_declares (hs : c.state = .on) (ht : c.uvT ≠ none) :
    railUvExpiry now (.of c) = declareOwn now .uv ((RailStep.of c).withRc { c with uvT := none }) :=
  if_pos ⟨hs, ht⟩

theorem railOcExpiry_declares (hs : c.state.active = true) (ht : c.ocT ≠ none) :
    railOcExpiry now (.of c) = declareOwn now .oc ((RailStep.of c).withRc { c with ocT := none }) :=
  if_pos ⟨hs, ht⟩

theorem railRampExpiry_declares (hs : c.state = .ramping) (ht : c.rampT ≠ none) :
    railRampExpiry now (.of c) = declareOwn now .rampTimeout ((RailStep.of c).withRc { c with rampT := none }) :=
  if_pos ⟨hs, ht⟩

end Expiry

/-- Settles O57: the filter's declaration under REPORT, and what the log makes of it. -/
theorem reportRecordsAndDisarms : Obligations.ReportRecordsAndDisarms := by
  intro s r i k c hresp hc hi
  have reported : exec i s = .next (logRail r k (s.rail r).state none (s.setRail r c)) := by
    rcases hi with ⟨rfl, rfl, hs, ht⟩ | ⟨rfl, rfl, hs, ht⟩
    · rw [hc, if_pos rfl]
      exact congrArg Host.Outcome.next (finish_report (railUvExpiry_declares hs ht) hresp (by decide))
    · rw [hc, if_neg (by decide)]
      exact congrArg Host.Outcome.next (finish_report (railOcExpiry_declares hs ht) hresp (by decide))
  rw [reported]
  refine ⟨fun hn => ⟨_, rfl, ?_, ?_⟩, fun l l' y hl hy hn => ?_⟩
  · rw [logRail, logFault_opens (by exact hn)]
    exact recomputeFlt_fltLaw _
  · rw [logRail, logFault_opens (by exact hn), planContext_eq]
    rfl
  · rw [logRail, logFault_merges (by exact hl) hy hn]
    rfl

/-! ### Discharge, backfeed and retry -/

theorem railDischargeExpiry_locks {c : RailChan} (ht : c.dischargeT ≠ none) (hs : c.state = .lowering ∨ c.state = .faulted) :
    railDischargeExpiry (.of c)
      = { ((RailStep.of c).declare .dischargeTimeout).move (dischargedOut c) with entered := true } := by
  refine (if_neg (by exact ht)).trans ?_
  rcases hs with hs | hs
  all_goals
    have state : (RailStep.of c).rc.state = _ := hs
    simp only [state]
    rfl

theorem railDischargeExpiry_stays {c : RailChan} (ht : c.dischargeT ≠ none) (hs : c.state = .locked) :
    railDischargeExpiry (.of c) = ((RailStep.of c).declare .dischargeTimeout).withRc (dischargedOut c) := by
  refine (if_neg (by exact ht)).trans ?_
  have state : (RailStep.of c).rc.state = _ := hs
  simp only [state]
  rfl

section Retry

variable {now : Uptime} {xf on kill : Bool} {c : RailChan}

theorem railRetryExpiry_defers (hs : c.state = .faulted) (ht : c.retryT ≠ none) (h : ¬ (on = true ∧ kill = false)) :
    railRetryExpiry now xf on kill (.of c) = .of { c with retryT := startTimer now (10 * c.cfg.retryInterval) } :=
  ((if_pos ⟨hs, ht⟩).trans (if_neg h)).trans (congrArg (RailStep.of c).withRc (if_pos hs))

theorem railRetryExpiry_retries (hs : c.state = .faulted) (ht : c.retryT ≠ none) (h : on = true ∧ kill = false) :
    railRetryExpiry now xf on kill (.of c)
      = enterRamping now xf ((RailStep.of c).withRc { c with retries := c.retries + 1, latched := 0, firstKind := none }) :=
  (if_pos ⟨hs, ht⟩).trans (if_pos h)

end Retry

/-- Settles O58: each expiry is one transition, and a retry at ZERO is an entry into RAMPING. -/
theorem dischargeBackfeedRetryExpiries : Obligations.DischargeBackfeedRetryExpiries := by
  refine ⟨fun s r c ht hu hc => ⟨fun hs => ?_, fun hs => ?_⟩, fun s r hs ht => ?_, fun s r hs ht => ⟨fun hno => ?_, fun hp hk hz hn hu => ?_⟩⟩
  · have locks := railDischargeExpiry_locks ht hs
    show Host.Outcome.next (finish (onRail r railDischargeExpiry (Delta.of s))) = _
    rw [finish_told_decls (by rw [locks]; rfl) (by rw [locks]; rfl) hu, locks, hc]
    rfl
  · have stays := railDischargeExpiry_stays ht hs
    show Host.Outcome.next (finish (onRail r railDischargeExpiry (Delta.of s))) = _
    rw [finish_onRail_unmoved (by rw [stays]; rfl) (by rw [stays]; rfl) (by rw [stays]; rfl), stays, hc]
    exact congrArg (fun st => Host.Outcome.next (logRail r .dischargeTimeout st none (s.setRail r (dischargedOut (s.rail r))))) hs
  · have declares : railBackfeedExpiry (.of (s.rail r)) = declareBackfeed (.of (s.rail r)) := if_pos ⟨hs, ht⟩
    show Host.Outcome.next (finish (onRail r railBackfeedExpiry (Delta.of s))) = _
    rw [finish_onRail_unmoved (by rw [declares]; rfl) (by rw [declares]; rfl) (by rw [declares]; rfl), declares]
    exact congrArg (fun st => Host.Outcome.next (logRail r .backfeed st none
      (s.setRail r { s.rail r with backfeedT := none, armBackfeed := false }))) hs
  · have asked : ¬ ((s.parentNotOn r).isNone = true ∧ s.pins.kill = false) := fun ⟨hp, hk⟩ =>
      hno.elim (fun h => h (allParentsOn_of_parentNotOn (Option.isNone_iff_eq_none.mp hp))) (fun h => by simp [hk] at h)
    exact congrArg Host.Outcome.next (finish_kept (railRetryExpiry_defers hs ht asked))
  · obtain ⟨flag, input⟩ := nothingStands_iff.mp hn
    have asked : (s.parentNotOn r).isNone = true ∧ s.pins.kill = false := ⟨by rw [parentNotOn_eq_none hp]; rfl, hk⟩
    exact congrArg Host.Outcome.next (finish_moved ((railRetryExpiry_retries hs ht asked).trans (enterRamping_of_zero _ _
      { s.rail r with retries := (s.rail r).retries + 1, latched := 0, firstKind := none } _ hz flag input)) hu)

end Sys2Proof.Machine
end

section
/-! PROOFS. A fault of a rail's own that cuts it (R32, R43, R62 to R65): the rail and the cascade that it begins, their records, and what is handed on.
The records follow from what one fault does to the log; the rails that the cascade takes are the active descendants. -/

namespace Sys2Proof.Machine

/-! ### One fault in the log -/

section Fault

variable {x : Subject} {c : Option PlanContext} {s : State} {y : LogRecord}

theorem mem_logFault_records : y ∈ (logFault x c s).log.records ↔
    if s.log.records.any (fun z => z.from x.source) then ∃ z ∈ s.log.records, (if z.from x.source then z.merge x.firstCode s.now else z) = y
    else y ∈ s.log.records ∨ y = LogRecord.opened x s.now c := by
  unfold logFault
  split
  · show y ∈ s.log.records.map _ ↔ _
    rw [List.mem_map]
  · show y ∈ s.log.records ++ [LogRecord.opened x s.now c] ↔ _
    simp

/-- A fault leaves the records of other sources alone. -/
theorem mem_logFault_of_ne (hy : y.subject.source ≠ x.source) : y ∈ (logFault x c s).log.records ↔ y ∈ s.log.records := by
  rw [mem_logFault_records]
  split
  · constructor
    · rintro ⟨z, hz, rfl⟩
      split at hy
      · rename_i hfrom
        exact absurd (by simpa [LogRecord.from, LogRecord.merge] using hfrom) hy
      · rename_i hfrom
        rwa [if_neg hfrom]
    · intro h
      exact ⟨y, h, if_neg (by simpa [LogRecord.from] using hy)⟩
  · exact ⟨fun h => h.resolve_right (fun he => hy (by rw [he]; rfl)), .inl⟩

theorem hasKind_kindBit (seen : KindSet) (x : Subject) : hasKind (seen ||| kindBit x.firstCode) x.firstCode = true := by
  simp [hasKind, kindBit, firstCode_lt]

/-- After a fault the log holds a record of its source that has seen its kind at this time (R150, R151). -/
theorem exists_logFault (x : Subject) (c : Option PlanContext) (s : State) :
    ∃ y ∈ (logFault x c s).log.records, y.subject.source = x.source ∧ hasKind y.seen x.firstCode = true ∧ y.lastTime = s.now := by
  by_cases h : s.log.records.any (fun z => z.from x.source) = true
  · obtain ⟨z, hz, hfrom⟩ := List.any_eq_true.mp h
    refine ⟨z.merge x.firstCode s.now, ?_, by simpa [LogRecord.from, LogRecord.merge] using hfrom, hasKind_kindBit z.seen x, rfl⟩
    rw [mem_logFault_records, if_pos h]
    exact ⟨z, hz, if_pos hfrom⟩
  · refine ⟨LogRecord.opened x s.now c, ?_, rfl, ?_, rfl⟩
    · rw [mem_logFault_records, if_neg h]
      exact .inr rfl
    · show hasKind (kindBit x.firstCode) x.firstCode = true
      simpa using hasKind_kindBit 0 x

/-- A fault of a source without a record opens it whole (R150). -/
theorem opened_mem_logFault (h : ∀ z ∈ s.log.records, z.subject.source ≠ x.source) : LogRecord.opened x s.now c ∈ (logFault x c s).log.records := by
  rw [logFault_opens h]
  show _ ∈ s.log.records ++ [LogRecord.opened x s.now c]
  simp

/-- FAULT is set, and no other part of the notification unit but INT# changes (R150, R151). -/
theorem logFault_notify (x : Subject) (c : Option PlanContext) (s : State) :
    (logFault x c s).notify = { s.notify with flags := s.notify.flags ||| 0x04 }.judge := by
  unfold logFault
  split <;> rfl

end Fault

/-! ### The cut of a rail -/

/-- A fault of a rail's own that cuts it (R32, R43 items 1 and 2). -/
def RailChan.cutStep (c : RailChan) (now : Uptime) (k : FaultKind) : RailStep where
  rc := c.cut now c.faultState k
  moved := true
  decls := [⟨k, c.state⟩]
  entered := true
  ownCut := true

theorem declareOwn_cuts {now : Uptime} {k : FaultKind} {e : RailStep} (hd : e.decls = []) (h : ¬ (e.rc.cfg.response = .report ∧ k ≠ .rampTimeout)) :
    declareOwn now k e = e.rc.cutStep now k := by
  rw [declareOwn, if_neg h, latch_cutTo]
  simp only [RailStep.move, RailStep.declare, RailChan.cutStep, hd, List.nil_append]
  rfl

/-- The part with a rail cut and recorded, before the cascade. -/
def State.cutRail (s : State) (r : Rail) (k : FaultKind) (c : RailChan) : State :=
  logRail r k c.state none (s.setRail r (c.cut s.now c.faultState k))

/-- The part with a rail cut and its cascade taken. -/
def State.cutAndTaken (s : State) (r : Rail) (k : FaultKind) (c : RailChan) : State :=
  cascadeAll r ((s.cutRail r k c).taken r) (s.cutRail r k c)

/-- The request that a cut of a rail with a fault plan raises (R135). -/
def RailChan.planRequests (c : RailChan) (r : Rail) : List PlanRequest := (c.cfg.faultPlan.map (fun p => { plan := p, rail := r })).toList

theorem ownRequest_cutStep (r : Rail) (c : RailChan) (now : Uptime) (k : FaultKind) :
    (ownRequest r (c.cutStep now k)).foldl (fun l q => insertRequest q l) [] = c.planRequests r := by
  have plan : (c.cutStep now k).rc.cfg.faultPlan = c.cfg.faultPlan := rfl
  unfold ownRequest RailChan.planRequests
  rw [plan]
  cases c.cfg.faultPlan <;> rfl

theorem commit_cutStep (s : State) (r : Rail) (k : FaultKind) (c : RailChan) :
    commit r (c.cutStep s.now k) (Delta.of s) =
      { s := s.cutAndTaken r k c
        changed := RailSet.add 0 r ||| (s.cutRail r k c).taken r
        reqs := c.planRequests r
        shed := c.cfg.shedMember || (RailSet.rails ((s.cutRail r k c).taken r)).any (fun x => ((s.cutRail r k c).rail x).cfg.shedMember) } := by
  rw [← ownRequest_cutStep r c s.now k]
  rfl

section Cut

variable {s : State} {r : Rail} {k : FaultKind} {c : RailChan}

theorem cutRail_rail (x : Rail) : (s.cutRail r k c).rail x = if r = x then c.cut s.now c.faultState k else s.rail x := by
  rw [State.cutRail, logRail_rail, setRail_rail]

theorem cutRail_cfg (hc : c.cfg = (s.rail r).cfg) (x : Rail) : ((s.cutRail r k c).rail x).cfg = (s.rail x).cfg := by
  rw [State.cutRail, logRail_rail]
  exact setRail_cfg (by exact hc) x

theorem faultState_inactive (c : RailChan) : c.faultState.active = false := by
  unfold RailChan.faultState
  split <;> rfl

/-- The cascade takes the active descendants, and never the rail itself. -/
theorem has_taken_cutRail (hc : c.cfg = (s.rail r).cfg) (x : Rail) :
    RailSet.has ((s.cutRail r k c).taken r) x = true ↔ x ≠ r ∧ RailSet.has (s.descendants r) x = true ∧ (s.rail x).state.active = true := by
  rw [has_taken, descendants_congr (cutRail_cfg hc), cutRail_rail]
  by_cases h : r = x
  · subst h
    have inactive : (c.cut s.now c.faultState k).state.active = false := faultState_inactive c
    simp [inactive]
  · simp [h, Ne.symm h]

theorem cutAndTaken_own (hc : c.cfg = (s.rail r).cfg) : (s.cutAndTaken r k c).rail r = c.cut s.now c.faultState k := by
  have untaken : ¬ RailSet.has ((s.cutRail r k c).taken r) r = true := fun h => ((has_taken_cutRail hc r).mp h).1 rfl
  rw [State.cutAndTaken, cascadeAll_rail, if_neg untaken, cutRail_rail, if_pos rfl]

theorem cutRail_now : (s.cutRail r k c).now = s.now := logFault_now _ _ _

theorem cutAndTaken_taken (hc : c.cfg = (s.rail r).cfg) {x : Rail} (hx : RailSet.has ((s.cutRail r k c).taken r) x = true) :
    (s.cutAndTaken r k c).rail x = (s.rail x).cut s.now .locked .cascade := by
  have other : r ≠ x := (((has_taken_cutRail hc x).mp hx).1).symm
  rw [State.cutAndTaken, cascadeAll_rail, if_pos hx, latch_cutTo, cutRail_rail, if_neg other, cutRail_now]

theorem cutAndTaken_other {x : Rail} (hr : x ≠ r) (hx : ¬ RailSet.has ((s.cutRail r k c).taken r) x = true) :
    (s.cutAndTaken r k c).rail x = s.rail x := by
  rw [State.cutAndTaken, cascadeAll_rail, if_neg hx, cutRail_rail, if_neg (Ne.symm hr)]

theorem cutAndTaken_elsewhere : s.SameElsewhere (s.cutAndTaken r k c) :=
  commit_elsewhere r (c.cutStep s.now k) (Delta.of s)

theorem cutAndTaken_shed : (s.cutAndTaken r k c).notify.shed = s.notify.shed :=
  commit_shed r (c.cutStep s.now k) (Delta.of s)

theorem cutAndTaken_fltLaw (hc : c.cfg = (s.rail r).cfg) (h : s.fltLaw) : (s.cutAndTaken r k c).fltLaw := by
  have own : (s.cutRail r k c).fltLaw :=
    logFault_fltLaw _ _ _ (fltLaw_congr (s := s) rfl (pinMember_congr (setRail_cfg (by exact hc)) rfl) h)
  exact (cascadeAll_acts r _ _).keeps State.fltLaw (fun _ _ => Act.fltLaw) own

end Cut

/-! ### The records of a cascade -/

/-- What every step of a cascade keeps. -/
theorem foldl_cascadeOne_keeps {P : State → Prop} {cause : Rail → Option Rail} {l : List Rail}
    (h : ∀ x ∈ l, ∀ t : State, P t → P (cascadeOne (cause x) x t)) {s : State} (hs : P s) :
    P (l.foldl (fun t x => cascadeOne (cause x) x t) s) := by
  induction l generalizing s with
  | nil => exact hs
  | cons x l ih => exact ih (fun y hy => h y (by simp [hy])) (h x (by simp) s hs)

theorem cascadeAll_keeps {P : State → Prop} {origin : Rail} {taken : RailSet} {s : State}
    (h : ∀ (t : State) (cause : Option Rail) (x : Rail), x ∈ RailSet.rails taken → P t → P (cascadeOne cause x t)) (hs : P s) :
    P (cascadeAll origin taken s) :=
  foldl_cascadeOne_keeps (fun x hx t ht => h t _ x hx ht) hs

theorem mem_cascadeAll_records {origin : Rail} {taken : RailSet} {s : State} {y : LogRecord}
    (h : ∀ x : Rail, RailSet.has taken x = true → y.subject.source ≠ x.val) :
    y ∈ (cascadeAll origin taken s).log.records ↔ y ∈ s.log.records := by
  refine cascadeAll_keeps (P := fun t => y ∈ t.log.records ↔ y ∈ s.log.records) (fun t cause x hx ht => ?_) Iff.rfl
  have other : y.subject.source ≠ x.val := h x ((mem_rails _ x).mp hx)
  exact (mem_logFault_of_ne other).trans ht

end Sys2Proof.Machine
end

section
/-! PROOFS. A cut that takes no other rail (R34, R39, R43): of a rail without children, and of one that has no active descendant. -/

namespace Sys2Proof.Machine

theorem descendants_childless {s : State} {r : Rail} (h : ∀ x : Rail, r ∉ (s.rail x).cfg.parents) : s.descendants r = 0 := by
  have fixed (l : List Rail) : l.foldl (s.addDescendant r) 0 = 0 := by
    induction l with
    | nil => rfl
    | cons x l ih =>
      have unnamed : s.addDescendant r 0 x = 0 := by
        refine if_neg fun found => ?_
        obtain ⟨p, hp, hpr⟩ := List.any_eq_true.mp found
        have named : p = r := by simpa [has_zero] using hpr
        exact h x (named ▸ hp)
      rw [List.foldl_cons, unnamed, ih]
  exact fixed allRails

section Untaken

variable {s : State} {r : Rail} {k : FaultKind} {c : RailChan}

theorem taken_eq_zero (hc : c.cfg = (s.rail r).cfg)
    (h : ∀ x : Rail, x ≠ r → RailSet.has (s.descendants r) x = true → (s.rail x).state.active = false) : (s.cutRail r k c).taken r = 0 := by
  refine RailSet.ext fun x => ?_
  refine (Bool.eq_false_iff.mpr ?_).trans (has_zero x).symm
  intro taken
  obtain ⟨other, found, active⟩ := (has_taken_cutRail hc x).mp taken
  exact absurd active (by simp [h x other found])

theorem taken_childless (hc : c.cfg = (s.rail r).cfg) (h : ∀ x : Rail, r ∉ (s.rail x).cfg.parents) : (s.cutRail r k c).taken r = 0 :=
  taken_eq_zero hc (fun x _ found => by simp [descendants_childless h, has_zero] at found)

/-- A cut that takes no other rail: the rail's record alone, and no further change. -/
theorem commit_cutStep_alone (h : (s.cutRail r k c).taken r = 0) :
    commit r (c.cutStep s.now k) (Delta.of s) =
      { s := s.cutRail r k c
        changed := RailSet.add 0 r
        reqs := c.planRequests r
        shed := c.cfg.shedMember } := by
  rw [commit_cutStep, State.cutAndTaken, h]
  simp [cascadeAll]

theorem cutRail_elsewhere : s.SameElsewhere (s.cutRail r k c) :=
  (State.SameElsewhere.setRail s r _).trans (.logFault _ _ _)

/-- A rail cut alone, without a fault plan, that no step waits on. -/
theorem finish_cutStep_alone {f : RailStep → RailStep} (hf : f (.of (s.rail r)) = c.cutStep s.now k) (h : (s.cutRail r k c).taken r = 0)
    (hp : c.cfg.faultPlan = none) (hu : s.unawaited r = true) :
    finish (onRail r f (Delta.of s))
      = (if c.cfg.shedMember then setShed else id) ((s.cutRail r k c).told (RailSet.add 0 r)) := by
  have committed : onRail r f (Delta.of s) = commit r (c.cutStep s.now k) (Delta.of s) := congrArg (fun e => commit r e (Delta.of s)) hf
  rw [committed, commit_cutStep_alone h, finish_told]
  · split <;> rfl
  · intro x hx
    obtain rfl : r = x := by simpa [has_add, has_zero] using hx
    exact (unawaited_congr (by rw [cutRail_elsewhere.eq]) (by rw [cutRail_elsewhere.eq]) r).trans hu
  · rw [RailChan.planRequests, hp]; rfl

end Untaken

/-! ### A HIGH arrival, and an assertion edge -/

theorem active_iff {st : RailState} : st.active = true ↔ st = .ramping ∨ st = .on := by
  cases st <;> simp [RailState.active]

theorem rearmByZone_high {c : RailChan} (h : c.zone = .high) : rearmByZone c = { c with armUv := true } := by
  simp [rearmByZone, h]

theorem declareOv_declares {now : Uptime} {e : RailStep} (hd : e.rc.cfg.detect.ov = true) (ha : e.rc.armOv = true) :
    declareOv now e = declareOwn now .ov e :=
  if_pos ⟨hd, ha⟩

/-- An arrival at HIGH with OV in the set and armed is a declaration of OV (R34). -/
theorem railZoneArrival_high {now : Uptime} {c : RailChan} (hz : c.zone = .high) (hs : c.state.active = true) (hd : c.cfg.detect.ov = true)
    (ha : c.armOv = true) :
    railZoneArrival now (.of c) = declareOwn now .ov (.of
      { c with armUv := true, settleT := if c.state = .ramping then none else c.settleT, uvT := if c.state = .on then none else c.uvT }) := by
  have zone : (RailStep.of { c with armUv := true }).rc.zone = .high := hz
  rcases active_iff.mp hs with hst | hst
  · rw [railZoneArrival_ramping hst, rearmByZone_high hz, judgeRamping_high zone, declareOv_declares hd ha, if_pos hst, if_neg (by simp [hst])]
    rfl
  · rw [railZoneArrival_on hst, rearmByZone_high hz, judgeOn_high zone, declareOv_declares hd ha, if_neg (by simp [hst]), if_pos hst]
    rfl

/-- Settles O53: the arrival and the edge are declarations of a rail whose cut takes no other. -/
theorem arrivalDeclaresOvAndExt : Obligations.ArrivalDeclaresOvAndExt := by
  intro s r hr hact hu hchild hplan hshed
  refine ⟨fun mv c hmay hz hc hd ha => ?_, fun x hx hb hd ha hresp => ?_⟩
  · have declared : takeZone s.now .high (.of ((s.senseVoltage r mv).rail r)) = declareOwn s.now .ov (.of c) := by
      rw [hc] at hd ha
      rw [takeZone_saw, railZoneArrival_high (c := (s.rail r).saw .high mv) rfl hact hd ha, hc]
      rfl
    have cfg : c.cfg = (s.rail r).cfg := by rw [hc]; rfl
    have restored (c' : RailChan) : (s.senseVoltage r mv).setRail r c' = s.setRail r c' := setRail_setRail s r _ c'
    have sensedCfg (x : Rail) : ((s.senseVoltage r mv).rail x).cfg = (s.rail x).cfg := setRail_cfg (by rfl) x
    rw [exec_zoneArrival hr hmay hz]
    refine ⟨fun hresp => ?_, fun hresp => ?_⟩
    · rw [finish_report (s := s.senseVoltage r mv) declared hresp (by decide), restored]
      rfl
    · rw [finish_cutStep_alone (s := s.senseVoltage r mv) (k := .ov) (c := c)
          (declared.trans (declareOwn_cuts rfl (fun h => hresp h.1)))
          (taken_childless (cfg.trans (sensedCfg r).symm) (fun x => by rw [sensedCfg x]; exact hchild x))
          (by rw [cfg]; exact hplan) ((unawaited_congr rfl rfl r).trans hu),
        if_neg (by rw [cfg]; simp [hshed]), State.cutRail, restored]
      rfl
  · rw [exec_xfAssertionEdge hr hx, edgeOrder_eq_singleton hb]
    have edge (t : State) (hrails : t.rails = s.rails) (hnow : t.now = s.now) (hut : t.unawaited r = true) :
        takeAssertion r t = (logRail r .ext (s.rail r).state none (t.setRail r ((s.rail r).cut s.now (s.rail r).faultState .ext))).told
          (RailSet.add 0 r) := by
      have same (y : Rail) : t.rail y = s.rail y := congrArg (fun v => v[y]) hrails
      have declared : railXfAssert t.now (.of (t.rail r)) = (s.rail r).cutStep t.now .ext := by
        rw [same r, railXfAssert_declares hact hd ha, declareOwn_cuts rfl (fun h => hresp h.1)]
        rfl
      rw [takeAssertion, finish_cutStep_alone declared (taken_childless (by rw [same]) (fun y => by rw [same]; exact hchild y)) hplan hut,
        if_neg (by simp [hshed]), State.cutRail, hnow]
      rfl
    refine congrArg Host.Outcome.next (edge _ ?_ ?_ ?_)
    · cases x <;> rfl
    · cases x <;> rfl
    · refine (unawaited_congr ?_ ?_ r).trans hu <;> cases x <;> rfl

end Sys2Proof.Machine
end

section
/-! PROOFS. The whole of a cut in an event of an IDLE engine (R43, R62 to R66, R150): the rail and its active descendants, their records, the pins, and what
is handed on. -/

namespace Sys2Proof.Machine

/-- The descendants that a cascade searches are those the terms name (00 Terms). -/
theorem has_descendants_iff {s : State} (hb : s.parentsBelow) (r x : Rail) : RailSet.has (s.descendants r) x = true ↔ s.Ancestor r x := by
  constructor
  · induction x using WellFoundedLT.induction with
    | ind x ih =>
      intro found
      obtain ⟨p, hp, rfl | hd⟩ := (has_descendants hb r x).mp found
      · exact .parent hp
      · exact .step (ih p (hb x p hp) hd) hp
  · intro h
    induction h with
    | parent hp => exact (has_descendants hb r _).mpr ⟨_, hp, .inl rfl⟩
    | step _ hp ih => exact (has_descendants hb r _).mpr ⟨_, hp, .inr ih⟩

theorem lt_of_ancestor {s : State} (hb : s.parentsBelow) {r x : Rail} (h : s.Ancestor r x) : r < x := by
  induction h with
  | parent hp => exact hb _ _ hp
  | step _ hp ih => exact ih.trans (hb _ _ hp)

/-! ### What is handed on -/

/-- The rails that a cut takes with it, and the rail itself. -/
def State.cutSet (s : State) (r : Rail) (k : FaultKind) (c : RailChan) : RailSet := RailSet.add 0 r ||| (s.cutRail r k c).taken r

/-- The part after a cut has been handed on, no engine and no plan request being told. -/
def State.cutDown (s : State) (r : Rail) (k : FaultKind) (c : RailChan) : State :=
  (if (RailSet.rails (s.cutSet r k c)).any (fun x => (s.rail x).cfg.shedMember) then setShed else id)
    ((s.cutAndTaken r k c).joined (s.cutSet r k c))

section CutDown

variable {s : State} {r : Rail} {k : FaultKind} {c : RailChan}

theorem has_cutSet {x : Rail} : RailSet.has (s.cutSet r k c) x = true ↔ x = r ∨ RailSet.has ((s.cutRail r k c).taken r) x = true := by
  rw [State.cutSet, has_or, has_add, show RailSet.has 0 x = false from has_zero x, Bool.false_or, Bool.or_eq_true, beq_iff_eq, eq_comm]

theorem cutSet_ne_zero : s.cutSet r k c ≠ 0 := by
  intro h
  have own : RailSet.has (s.cutSet r k c) r = true := has_cutSet.mpr (.inl rfl)
  rw [h] at own
  exact absurd own (by simp)

/-- A shed member among the rails cut (R169). -/
theorem shed_cutStep (hc : c.cfg = (s.rail r).cfg) :
    (c.cfg.shedMember || (RailSet.rails ((s.cutRail r k c).taken r)).any (fun x => ((s.cutRail r k c).rail x).cfg.shedMember))
      = (RailSet.rails (s.cutSet r k c)).any (fun x => (s.rail x).cfg.shedMember) := by
  rw [Bool.eq_iff_iff, Bool.or_eq_true, List.any_eq_true, List.any_eq_true]
  simp only [mem_rails, has_cutSet, cutRail_cfg hc, hc]
  constructor
  · rintro (h | ⟨x, hx, h⟩)
    · exact ⟨r, .inl rfl, h⟩
    · exact ⟨x, .inr hx, h⟩
  · rintro ⟨x, rfl | hx, h⟩
    · exact .inl h
    · exact .inr ⟨x, hx, h⟩

/-- A cut in the event of an IDLE engine, of a rail without a fault plan. -/
theorem finish_cutStep {f : RailStep → RailStep} (hf : f (.of (s.rail r)) = c.cutStep s.now k) (hc : c.cfg = (s.rail r).cfg)
    (hp : c.cfg.faultPlan = none) (hi : s.engine.run = none) : finish (onRail r f (Delta.of s)) = s.cutDown r k c := by
  have committed : onRail r f (Delta.of s) = commit r (c.cutStep s.now k) (Delta.of s) := congrArg (fun e => commit r e (Delta.of s)) hf
  have idle : (s.cutAndTaken r k c).engine.run = none := by rw [cutAndTaken_elsewhere.eq]; exact hi
  rw [committed, commit_cutStep, shed_cutStep hc, finish_told]
  · show (if _ then setShed ((s.cutAndTaken r k c).told (s.cutSet r k c)) else (s.cutAndTaken r k c).told (s.cutSet r k c)) = _
    rw [told_of_idle idle, State.cutDown]
    split <;> rfl
  · intro x _
    simp only [State.unawaited, idle]
  · rw [RailChan.planRequests, hp]; rfl

theorem cutDown_eq : s.cutDown r k c = (s.cutAndTaken r k c).setNotify
    { (s.cutAndTaken r k c).notify.joinedBy (s.cutSet r k c) with
        shed := s.notify.shed || (RailSet.rails (s.cutSet r k c)).any (fun x => (s.rail x).cfg.shedMember) } := by
  have kept : ((s.cutAndTaken r k c).notify.joinedBy (s.cutSet r k c)).shed = s.notify.shed := by
    rw [Notify.joinedBy, if_neg cutSet_ne_zero]
    exact cutAndTaken_shed
  rw [State.cutDown, joined_eq]
  cases h : (RailSet.rails (s.cutSet r k c)).any (fun x => (s.rail x).cfg.shedMember) with
  | true =>
    rw [if_pos rfl, Bool.or_true]
    rfl
  | false =>
    rw [if_neg (by simp), Bool.or_false, ← kept]
    rfl

theorem cutDown_elsewhere : s.SameElsewhere (s.cutDown r k c) := by
  rw [cutDown_eq]
  exact cutAndTaken_elsewhere.trans (.setNotify _ _)

theorem cutDown_rail (x : Rail) : (s.cutDown r k c).rail x = (s.cutAndTaken r k c).rail x := by
  rw [cutDown_eq]
  rfl

theorem cutDown_log : (s.cutDown r k c).log = (s.cutAndTaken r k c).log := by
  rw [cutDown_eq]
  rfl

/-- The faults of a cut set FAULT and change no other flag, no enable and no rail of the change set. -/
theorem cutAndTaken_notify : (s.cutAndTaken r k c).notify.flags = s.notify.flags ||| 0x04
    ∧ (s.cutAndTaken r k c).notify.enables = s.notify.enables ∧ (s.cutAndTaken r k c).notify.changed = s.notify.changed := by
  refine cascadeAll_keeps (P := fun t => t.notify.flags = s.notify.flags ||| 0x04 ∧ t.notify.enables = s.notify.enables
    ∧ t.notify.changed = s.notify.changed) (fun t cause x _ ⟨hf, he, hch⟩ => ?_) ?_
  · rw [cascadeOne, logRail, logFault_notify]
    refine ⟨?_, he, hch⟩
    show t.notify.flags ||| 0x04 = _
    rw [hf, BitVec.or_assoc, BitVec.or_self]
  · rw [State.cutRail, logRail, logFault_notify]
    exact ⟨rfl, rfl, rfl⟩

theorem joinedBy_of_ne_zero {n : Notify} {x : RailSet} (h : x ≠ 0) : n.joinedBy x = { n with changed := n.changed ||| x }.judge := by
  rw [Notify.joinedBy, if_neg h]

theorem cutDown_notify : (s.cutDown r k c).notify.flags = s.notify.flags ||| 0x04
    ∧ (s.cutDown r k c).notify.enables = s.notify.enables ∧ (s.cutDown r k c).notify.changed = s.notify.changed ||| s.cutSet r k c := by
  obtain ⟨hf, he, hch⟩ := cutAndTaken_notify (s := s) (r := r) (k := k) (c := c)
  rw [cutDown_eq, joinedBy_of_ne_zero cutSet_ne_zero]
  exact ⟨hf, he, congrArg (fun x => x ||| s.cutSet r k c) hch⟩

theorem cutDown_shed : (s.cutDown r k c).notify.shed = (s.notify.shed || (RailSet.rails (s.cutSet r k c)).any (fun x => (s.rail x).cfg.shedMember)) := by
  rw [cutDown_eq]
  rfl

theorem cutDown_intLaw : (s.cutDown r k c).intLaw := by
  rw [cutDown_eq, joinedBy_of_ne_zero cutSet_ne_zero]
  exact judged_intLaw (s.cutAndTaken r k c) _

theorem cutDown_fltLaw (hc : c.cfg = (s.rail r).cfg) (h : s.fltLaw) : (s.cutDown r k c).fltLaw :=
  fltLaw_congr (by rw [cutDown_log]) (pinMember_congr (fun x => by rw [cutDown_rail]) (by rw [cutDown_eq]; rfl)) (cutAndTaken_fltLaw hc h)

end CutDown

/-! ### The records of a cut -/

section Records

variable {s : State} {r : Rail} {k : FaultKind} {c : RailChan} {y : LogRecord}

theorem mem_cutRail_of_ne (hy : y.subject.source ≠ r.val) : y ∈ (s.cutRail r k c).log.records ↔ y ∈ s.log.records := mem_logFault_of_ne hy

/-- The records of sources that are not cut stand as they stood. -/
theorem mem_cutDown_of_uncut (h : ∀ x : Rail, RailSet.has (s.cutSet r k c) x = true → y.subject.source ≠ x.val) :
    y ∈ (s.cutDown r k c).log.records ↔ y ∈ s.log.records := by
  rw [cutDown_log, State.cutAndTaken, mem_cascadeAll_records (fun x hx => h x (has_cutSet.mpr (.inr hx)))]
  exact mem_cutRail_of_ne (h r (has_cutSet.mpr (.inl rfl)))

/-- The record of the rail itself stands through the cascade. -/
theorem mem_cutDown_own (hc : c.cfg = (s.rail r).cfg) (hy : y.subject.source = r.val) :
    y ∈ (s.cutDown r k c).log.records ↔ y ∈ (s.cutRail r k c).log.records := by
  rw [cutDown_log, State.cutAndTaken]
  refine mem_cascadeAll_records fun x hx same => ?_
  exact ((has_taken_cutRail hc x).mp hx).1 (Fin.val_injective (same.symm.trans hy))

theorem cutDown_ownRecord (hc : c.cfg = (s.rail r).cfg) :
    ∃ y ∈ (s.cutDown r k c).log.records, y.subject.source = r.val ∧ hasKind y.seen k.code = true ∧ y.lastTime = s.now := by
  obtain ⟨y, hy, source, seen, time⟩ := exists_logFault (.rail r k c.state none) (s.setRail r (c.cut s.now c.faultState k)).planContext
    (s.setRail r (c.cut s.now c.faultState k))
  exact ⟨y, (mem_cutDown_own hc source).mpr hy, source, seen, time⟩

theorem planContext_of_idle {t : State} (h : t.engine.run = none) : t.planContext = none := by
  simp only [State.planContext, h]

theorem cutDown_openedOwn (hc : c.cfg = (s.rail r).cfg) (hi : s.engine.run = none) (hn : ∀ y ∈ s.log.records, y.subject.source ≠ r.val) :
    LogRecord.opened (.rail r k c.state none) s.now none ∈ (s.cutDown r k c).log.records := by
  refine (mem_cutDown_own hc rfl).mpr ?_
  rw [State.cutRail, logRail, planContext_of_idle (by exact hi)]
  exact opened_mem_logFault (s := s.setRail r (c.cut s.now c.faultState k)) hn

/-- A step of a cascade opens the record of its rail when it has none (R63 item 3, R150). -/
theorem opened_mem_cascadeOne {t : State} {x : Rail} {cause : Option Rail} (hi : t.engine.run = none)
    (hn : ∀ z ∈ t.log.records, z.subject.source ≠ x.val) :
    LogRecord.opened (.rail x .cascade (t.rail x).state cause) t.now none ∈ (cascadeOne cause x t).log.records := by
  rw [cascadeOne, logRail, planContext_of_idle (by exact hi)]
  exact opened_mem_logFault (s := t.setRail x _) hn

theorem mem_cascadeOne_of_ne {t : State} {x : Rail} {cause : Option Rail} (h : y.subject.source ≠ x.val) :
    y ∈ (cascadeOne cause x t).log.records ↔ y ∈ t.log.records := mem_logFault_of_ne h

/-- What a later rail of a cascade finds as it was before the cascade. -/
def State.Untouched (s : State) (x : Rail) (t : State) : Prop :=
  t.rail x = s.rail x ∧ t.now = s.now ∧ t.engine = s.engine ∧ ∀ z : LogRecord, z.subject.source = x.val → (z ∈ t.log.records ↔ z ∈ s.log.records)

theorem untouched_cascadeOne {t : State} {x z : Rail} {cause : Option Rail} (h : s.Untouched x t) (hz : z ≠ x) :
    s.Untouched x (cascadeOne cause z t) := by
  obtain ⟨hr, hn, he, hl⟩ := h
  refine ⟨?_, ?_, ?_, fun y hy => (mem_cascadeOne_of_ne (fun same => hz ?_)).trans (hl y hy)⟩
  · rw [cascadeOne_rail, if_neg hz, hr]
  · rw [cascadeOne_now, hn]
  · exact ((State.SameElsewhere.setRail t z _).trans (.logFault _ _ _)).engine.trans he
  · exact Fin.val_injective (same.symm.trans hy)

/-- Each rail that a cascade takes without a record gets one, with its cause rail (R62, R63 item 3). -/
theorem opened_mem_cascadeAll {origin x : Rail} {taken : RailSet} (hx : RailSet.has taken x = true) (hi : s.engine.run = none)
    (hn : ∀ z ∈ s.log.records, z.subject.source ≠ x.val) :
    LogRecord.opened (.rail x .cascade (s.rail x).state (s.causeRail origin taken x)) s.now none ∈ (cascadeAll origin taken s).log.records := by
  obtain ⟨before, after, parts⟩ := List.append_of_mem ((mem_rails taken x).mpr hx)
  have nodup : (before ++ x :: after).Nodup := parts ▸ rails_nodup taken
  obtain ⟨-, tailNodup, apart⟩ := List.nodup_append.mp nodup
  have notAfter := (List.nodup_cons.mp tailNodup).1
  rw [cascadeAll, parts, List.foldl_append, List.foldl_cons]
  refine foldl_cascadeOne_keeps (P := fun t => LogRecord.opened _ s.now none ∈ t.log.records) (fun z hz t ht => ?_) ?_
  · refine (mem_cascadeOne_of_ne fun same => notAfter ?_).mpr ht
    exact (Fin.val_injective same : x = z) ▸ hz
  · have untouched := foldl_cascadeOne_keeps (P := s.Untouched x) (cause := s.causeRail origin taken) (l := before)
      (fun z hz t ht => untouched_cascadeOne ht (apart z hz x (by simp))) ⟨rfl, rfl, rfl, fun _ _ => Iff.rfl⟩
    obtain ⟨hr, hnow, he, hl⟩ := untouched
    rw [← hr, ← hnow]
    refine opened_mem_cascadeOne (by rw [he]; exact hi) fun z hz source => ?_
    exact hn z ((hl z source).mp hz) source

end Records

end Sys2Proof.Machine
end

section
/-! PROOFS. A fault of a rail's own under an IDLE engine (R19, R35, R36, R43, R62 to R65): each expiry cuts the rail down, and the cause rail of a rail that
the cascade takes stands above it. -/

namespace Sys2Proof.Machine

section

variable {s : State} {r : Rail} {k : FaultKind} {c : RailChan}

/-- The rails that a cut takes are the active descendants (R62). -/
theorem taken_iff_ancestor (hb : s.parentsBelow) (hc : c.cfg = (s.rail r).cfg) {x : Rail} :
    RailSet.has ((s.cutRail r k c).taken r) x = true ↔ s.Ancestor r x ∧ (s.rail x).state.active = true := by
  rw [has_taken_cutRail hc, has_descendants_iff hb]
  exact ⟨And.right, fun h => ⟨(lt_of_ancestor hb h.1).ne', h⟩⟩

/-- A rail that a cascade takes has a cause rail: its lowest-numbered parent that is cut (R62, with R61). -/
theorem causeRail_of_taken (hb : s.parentsBelow) (ho : s.parentsOn) (hc : c.cfg = (s.rail r).cfg) {x : Rail}
    (hx : RailSet.has ((s.cutRail r k c).taken r) x = true) :
    ∃ p : Rail, (s.cutRail r k c).causeRail r ((s.cutRail r k c).taken r) x = some p ∧ p ∈ (s.rail x).cfg.parents
      ∧ (p = r ∨ RailSet.has ((s.cutRail r k c).taken r) p = true)
      ∧ ∀ q ∈ (s.rail x).cfg.parents, q < p → q ≠ r ∧ ¬ RailSet.has ((s.cutRail r k c).taken r) q = true := by
  have parents : ((s.cutRail r k c).rail x).cfg.parents = (s.rail x).cfg.parents := by rw [cutRail_cfg hc]
  obtain ⟨-, found, active⟩ := (has_taken_cutRail hc x).mp hx
  obtain ⟨p, hp, cutParent⟩ := (has_descendants hb r x).mp found
  have cutHas : p = r ∨ RailSet.has ((s.cutRail r k c).taken r) p = true := by
    refine cutParent.imp id fun hd => (has_taken_cutRail hc p).mpr ⟨?_, hd, ?_⟩
    · exact (lt_of_ancestor hb ((has_descendants_iff hb r p).mp hd)).ne'
    · rw [ho x p active hp]
      rfl
  cases hcause : (s.cutRail r k c).causeRail r ((s.cutRail r k c).taken r) x with
  | none =>
    have no := lowestRail_eq_none.mp hcause p
    simp only [parents, List.contains_iff_mem.mpr hp, Bool.true_and, Bool.or_eq_false_iff, beq_eq_false_iff_ne] at no
    exact absurd cutHas (not_or.mpr ⟨no.1, Bool.eq_false_iff.mp no.2⟩)
  | some p =>
    obtain ⟨hp, least⟩ := lowestRail_eq_some.mp hcause
    simp only [parents, Bool.and_eq_true, Bool.or_eq_true, List.contains_iff_mem, beq_iff_eq] at hp
    refine ⟨p, rfl, hp.1, hp.2, fun q hq below => ?_⟩
    have uncut := least q below
    simp only [parents, List.contains_iff_mem.mpr hq, Bool.true_and, Bool.or_eq_false_iff, beq_eq_false_iff_ne] at uncut
    exact ⟨uncut.1, Bool.eq_false_iff.mp uncut.2⟩

end

/-- Settles O56: an expiry of the rail's own cuts it down, the cascade taking its active descendants. -/
theorem ownFaultCutsAndCascades : Obligations.OwnFaultCutsAndCascades := by
  intro s r i k cut hb hi hp hexec hcut
  obtain ⟨c, stepped, cfg, state, same⟩ : ∃ c : RailChan, exec i s = .next (s.cutDown r k c) ∧ c.cfg = (s.rail r).cfg
      ∧ c.state = (s.rail r).state ∧ c.cut s.now c.faultState k = (s.rail r).cut s.now (s.rail r).faultState k := by
    rcases hexec with ⟨rfl, rfl, hs, ht, hresp⟩ | ⟨rfl, rfl, hs, ht, hresp⟩ | ⟨rfl, rfl, hs, ht⟩
    · refine ⟨{ s.rail r with uvT := none }, congrArg Host.Outcome.next (finish_cutStep ?_ rfl hp hi), rfl, rfl, rfl⟩
      exact (railUvExpiry_declares hs ht).trans (declareOwn_cuts rfl (fun h => hresp h.1))
    · refine ⟨{ s.rail r with ocT := none }, congrArg Host.Outcome.next (finish_cutStep ?_ rfl hp hi), rfl, rfl, rfl⟩
      exact (railOcExpiry_declares hs ht).trans (declareOwn_cuts rfl (fun h => hresp h.1))
    · refine ⟨{ s.rail r with rampT := none }, congrArg Host.Outcome.next (finish_cutStep ?_ rfl hp hi), rfl, rfl, rfl⟩
      exact (railRampExpiry_declares hs ht).trans (declareOwn_cuts rfl (fun h => h.2 rfl))
  have taken (x : Rail) : RailSet.has ((s.cutRail r k c).taken r) x = true ↔ cut x := by rw [taken_iff_ancestor hb cfg, hcut]
  have cutIff (x : Rail) : RailSet.has (s.cutSet r k c) x = true ↔ x = r ∨ cut x := by rw [has_cutSet, taken]
  obtain ⟨flags, enables, changed⟩ := cutDown_notify (s := s) (r := r) (k := k) (c := c)
  refine ⟨s.cutDown r k c, stepped, cutDown_elsewhere.eq, ?_, fun x hx => ?_, fun x hr hx => ?_, fun x => ?_, flags, enables, ?_, cutDown_intLaw,
    cutDown_fltLaw cfg, fun y hy hn => ?_, fun y hy hn => ?_, cutDown_ownRecord cfg, fun hn => ?_, fun ho x hx hn => ?_⟩
  case refine_1 => rw [cutDown_rail, cutAndTaken_own cfg, same]
  case refine_2 => rw [cutDown_rail, cutAndTaken_taken cfg ((taken x).mpr hx)]
  case refine_3 => rw [cutDown_rail, cutAndTaken_other hr (fun h => hx ((taken x).mp h))]
  case refine_4 => rw [changed, has_or, Bool.or_eq_true, cutIff]
  case refine_5 =>
    rw [cutDown_shed, Bool.or_eq_true, List.any_eq_true]
    simp only [mem_rails, cutIff]
  case refine_6 => exact (mem_cutDown_of_uncut (fun x hx => hn x ((cutIff x).mp hx))).mpr hy
  case refine_7 => exact (mem_cutDown_of_uncut (fun x hx => hn x ((cutIff x).mp hx))).mp hy
  case refine_8 =>
    rw [← state]
    exact cutDown_openedOwn cfg hi hn
  case refine_9 =>
    have hx' := (taken x).mpr hx
    obtain ⟨other, -, -⟩ := (has_taken_cutRail cfg x).mp hx'
    obtain ⟨p, cause, hp, hcutp, least⟩ := causeRail_of_taken hb ho cfg hx'
    refine ⟨p, hp, hcutp.imp id (taken p).mp, fun q hq below => (least q hq below).imp id (mt (taken q).mpr), ?_⟩
    have unrecorded : ∀ z ∈ (s.cutRail r k c).log.records, z.subject.source ≠ x.val := fun z hz source =>
      hn z ((mem_cutRail_of_ne (fun own => other (Fin.val_injective (source.symm.trans own)))).mp hz) source
    have opened := opened_mem_cascadeAll (origin := r) hx' (by rw [cutRail_elsewhere.engine]; exact hi) unrecorded
    rw [cause, cutRail_rail, if_neg (Ne.symm other), cutRail_now] at opened
    rw [cutDown_log]
    exact opened

end Sys2Proof.Machine
end

section
/-! PROOFS. RAISE into an asserted bound input (R14, R40, R43): the entry into RAMPING declares EXT, and the cut takes no other rail where R61 stands. -/

namespace Sys2Proof.Machine

/-- A rail that is not ON has no active descendant, where R61 stands. -/
theorem found_inactive {s : State} (ho : s.parentsOn) {r : Rail} (hr : (s.rail r).state ≠ .on) {x : Rail}
    (hx : RailSet.has (s.descendants r) x = true) : (s.rail x).state.active = false := by
  have each (l : List Rail) (found : RailSet) (h : ∀ y, RailSet.has found y = true → (s.rail y).state.active = false) :
      ∀ y, RailSet.has (l.foldl (s.addDescendant r) found) y = true → (s.rail y).state.active = false := by
    induction l generalizing found with
    | nil => exact h
    | cons z l ih =>
      refine ih _ fun y hy => ?_
      rcases (has_addDescendant s r found z y).mp hy with hy | ⟨rfl, p, hp, hpf⟩
      · exact h y hy
      · refine Bool.eq_false_iff.mpr fun active => ?_
        have on : (s.rail p).state = .on := ho z p active hp
        rcases hpf with rfl | hpf
        · exact hr on
        · have inactive := h p hpf
          rw [on] at inactive
          cases inactive
  exact each allRails 0 (fun y hy => by simp at hy) x hx

section

variable {s : State} {r : Rail} {k : FaultKind} {c : RailChan}

/-- A cut that takes no other rail cuts its rail alone. -/
theorem has_cutSet_alone (h : (s.cutRail r k c).taken r = 0) (x : Rail) : RailSet.has (s.cutSet r k c) x = true ↔ x = r := by
  rw [has_cutSet, h]
  simp

/-- A RAISE whose entry declares EXT (R40). -/
theorem railRaise_cuts {now : Uptime} {c : RailChan} (hz : c.zone = .zero) (hf : c.overCurrent = false) (hd : c.cfg.detect.ext = true)
    (hresp : c.cfg.response ≠ .report) : railRaise now true (.of c) = (c.raised now).cutStep now .ext := by
  have entered : railRaise now true (.of c) = judgeInputAtEntry now true ((RailStep.of c).move (c.raised now)) :=
    enterRamping_before_input now true { c with retries := 0 } c hz (by simp [hf])
  have declared : judgeInputAtEntry now true ((RailStep.of c).move (c.raised now)) = declareOwn now .ext ((RailStep.of c).move (c.raised now)) :=
    (if_pos ⟨rfl, rfl⟩).trans (if_pos ⟨hd, rfl⟩)
  rw [entered, declared, declareOwn_cuts rfl (fun h => hresp h.1)]
  rfl

end

/-- Settles O21: the entry's EXT cuts the rail down in the event of the RAISE. -/
theorem raiseMeetsStandingInput : Obligations.RaiseMeetsStandingInput := by
  intro s r hr h0 hs hparents hz hk hoc hd hx hresp hplan hi
  obtain ⟨u, hu⟩ : ∃ u, u = setCmd 0x01 s := ⟨_, rfl⟩
  obtain ⟨c, hc⟩ : ∃ c, c = (s.rail r).raised s.now := ⟨_, rfl⟩
  have same (x : Rail) : u.rail x = s.rail x := by rw [hu]; rfl
  have cfg : c.cfg = (u.rail r).cfg := by rw [hc, same]; rfl
  have now : u.now = s.now := by rw [hu]; rfl
  have judged : judgeRaise u r = .plain .accepted := by
    rw [hu]
    exact judgeRaise_ready (s := setCmd 0x01 s) hs hparents hz hk
  have bound : u.boundAsserted r = true := by
    rw [hu]
    exact hx
  have raised : railRaise u.now (u.boundAsserted r) (.of (u.rail r)) = c.cutStep u.now .ext := by
    rw [bound, same, now, hc, railRaise_cuts hz hoc hd hresp]
  have down : finish (doRaise r (Delta.of u)) = u.cutDown r .ext c :=
    finish_cutStep raised cfg (by rw [hc]; exact hplan) (by rw [hu]; exact hi)
  have answered : exec .raise s = .next ((u.cutDown r .ext c).window 0x01 0x01 0) := by
    rw [exec_raise, hostCommand_eq_answer hr, ← hu, hostRaise, ownRails_accepted (by rw [hu]; exact h0) judged, down]
    refine congrArg Host.Outcome.next ?_
    have bus : (u.cutDown r .ext c).bus = u.bus := cutDown_elsewhere.bus
    show ({ u.cutDown r .ext c with bus := { (u.cutDown r .ext c).bus with res := 0x01, rdet := 0 } } : State) = _
    rw [State.window, bus, hu]
    rfl
  obtain ⟨flags, enables, changed⟩ := cutDown_notify (s := u) (r := r) (k := .ext) (c := c)
  refine ⟨_, answered, ?_, ?_, ?_, ?_, ?_, ?_, fun h => ?_, ?_, fun ho => ?_⟩
  · rw [cutDown_elsewhere.eq, hu]
    rfl
  · show (u.cutDown r .ext c).rail r = _
    rw [cutDown_rail, cutAndTaken_own cfg, now, hc]
  · show RailSet.has (u.cutDown r .ext c).notify.changed r = true
    rw [changed, has_or, has_cutSet.mpr (.inl rfl), Bool.or_true]
  · exact flags.trans (by rw [hu]; rfl)
  · exact enables.trans (by rw [hu]; rfl)
  · exact intLaw_congr rfl cutDown_intLaw
  · exact fltLaw_congr rfl (pinMember_congr (fun _ => rfl) rfl) (cutDown_fltLaw cfg (by rw [hu]; exact h))
  · rw [← now]
    exact cutDown_ownRecord cfg
  · have untaken : (u.cutRail r .ext c).taken r = 0 := by
      refine taken_eq_zero cfg fun x _ found => ?_
      have moved : u.descendants r = s.descendants r := descendants_congr (fun y => by rw [same]) r
      rw [same]
      exact found_inactive ho (by rw [hs]; decide) (moved ▸ found)
    have alone := has_cutSet_alone untaken
    have notify : u.notify = s.notify := by rw [hu]; rfl
    refine ⟨fun x hxr => ?_, ?_, ?_, fun y hy hn => ?_⟩
    · show (u.cutDown r .ext c).rail x = _
      rw [cutDown_rail, cutAndTaken_other hxr (by simp [untaken]), same]
    · refine changed.trans (RailSet.ext fun x => ?_)
      rw [has_or, has_add, Bool.eq_iff_iff, Bool.or_eq_true, Bool.or_eq_true, alone, beq_iff_eq, notify, eq_comm (a := r)]
    · refine cutDown_shed.trans ?_
      rw [Bool.eq_iff_iff, Bool.or_eq_true, Bool.or_eq_true, List.any_eq_true]
      simp only [mem_rails, alone, exists_eq_left, same, notify]
    · have := (mem_cutDown_of_uncut (fun x hx => by rw [(alone x).mp hx]; exact hn)).mp hy
      rw [hu] at this
      exact this

end Sys2Proof.Machine
end

section
/-! PROOFS. The configuration record and its twenty bytes (R189, R191): field by field both ways, then the whole. -/

namespace Sys2Proof.Machine

/-! ### Fields of one byte -/

theorem byte_toNat (b : Byte) : byte b.toNat = b := BitVec.ofNat_toNat ..

theorem byte_ne_zero {n : Nat} (h1 : 1 ≤ n) (h : n ≤ 255) : byte n ≠ 0 := fun h0 => by
  have := congrArg BitVec.toNat h0
  rw [toNat_byte (by omega)] at this
  exact absurd this (by simp; omega)

/-- The three flags of byte 0. -/
def memberByte (used shed pin : Bool) : Byte := bitAt used 0 ||| bitAt shed 1 ||| bitAt pin 2

theorem memberByte_bits : ∀ b : Byte, b &&& 0xF8 = 0 → memberByte (b.getLsbD 0) (b.getLsbD 1) (b.getLsbD 2) = b := by decide

theorem bits_memberByte : ∀ used shed pin : Bool, (memberByte used shed pin).getLsbD 0 = used ∧ (memberByte used shed pin).getLsbD 1 = shed
    ∧ (memberByte used shed pin).getLsbD 2 = pin ∧ memberByte used shed pin &&& 0xF8 = 0 := by decide

/-- The five kinds of byte 15. -/
def detectByte (d : DetectSet) : Byte := bitAt d.ov 0 ||| bitAt d.uv 1 ||| bitAt d.oc 2 ||| bitAt d.ext 3 ||| bitAt d.backfeed 4

/-- The kinds that byte 15 names. -/
def detectOf (b : Byte) : DetectSet :=
  { ov := b.getLsbD 0, uv := b.getLsbD 1, oc := b.getLsbD 2, ext := b.getLsbD 3, backfeed := b.getLsbD 4 }

theorem detectByte_detectOf : ∀ b : Byte, b &&& 0xE0 = 0 → detectByte (detectOf b) = b := by decide

theorem detectOf_detectByte (d : DetectSet) : detectOf (detectByte d) = d ∧ detectByte d &&& 0xE0 = 0 := by
  obtain ⟨ov, uv, oc, ext, backfeed⟩ := d
  revert ov uv oc ext backfeed
  decide

theorem tag_setWidth : ∀ b : Byte, b.toNat ≤ 15 → (b.setWidth 4).setWidth 8 = b := by decide

theorem setWidth_tag : ∀ t : BitVec 4, (t.setWidth 8).setWidth 4 = t ∧ (t.setWidth 8).toNat ≤ 15 := by decide

theorem bindingResponse_of : ∀ b : Byte, b &&& 0x03 ≠ 0x03 → b &&& 0x30 ≠ 0x30 → b &&& 0xCC = 0 →
    bindingCode (bindingOf b) ||| responseCode (responseOf b) = b := by decide

theorem of_bindingResponse (x : Option XfInput) (y : Response) :
    bindingOf (bindingCode x ||| responseCode y) = x ∧ responseOf (bindingCode x ||| responseCode y) = y
      ∧ (bindingCode x ||| responseCode y) &&& 0x03 ≠ 0x03 ∧ (bindingCode x ||| responseCode y) &&& 0x30 ≠ 0x30
      ∧ (bindingCode x ||| responseCode y) &&& 0xCC = 0 := by
  rcases x with _ | _ | _ <;> cases y <;> decide

theorem absentFF_railOf : ∀ b : Byte, b.toNat ≤ 15 ∨ b = 0xFF → absentFF (railOf b) = b := by decide

theorem railOf_absentFF : ∀ x : Option Rail, railOf (absentFF x) = x ∧ ((absentFF x).toNat ≤ 15 ∨ absentFF x = 0xFF) := by decide

theorem absentFF_planOf : ∀ b : Byte, b.toNat ≤ 7 ∨ b = 0xFF → absentFF (planOf b) = b := by decide

theorem planOf_absentFF : ∀ x : Option PlanNo, planOf (absentFF x) = x ∧ ((absentFF x).toNat ≤ 7 ∨ absentFF x = 0xFF) := by decide

/-! ### Levels -/

theorem byte_pairNat_low (low high : Byte) : byte (pairNat low high) = low := by
  refine BitVec.eq_of_toNat_eq ?_
  simp only [byte, pairNat, BitVec.toNat_ofNat]
  have := low.isLt
  omega

theorem byte_pairNat_high (low high : Byte) : byte (pairNat low high / 256) = high := by
  refine BitVec.eq_of_toNat_eq ?_
  simp only [byte, pairNat, BitVec.toNat_ofNat]
  have := low.isLt
  have := high.isLt
  omega

theorem pairNat_byte {n : Nat} (h : n ≤ 20000) : pairNat (byte n) (byte (n / 256)) = n := by
  simp only [byte, pairNat, BitVec.toNat_ofNat]
  omega

/-! ### The whole record -/

/-- What `fieldUndefined` says of bytes that hold no undefined value. -/
theorem fieldUndefined_eq_false {v : Vector Byte 20} : fieldUndefined v = false ↔
    v[0] &&& 0xF8 = 0 ∧ v[1].toNat ≤ 15 ∧ (v[2].toNat ≤ 15 ∨ v[2] = 0xFF) ∧ (v[3].toNat ≤ 15 ∨ v[3] = 0xFF)
      ∧ v[10] ≠ 0 ∧ v[11] ≠ 0 ∧ v[13] ≠ 0 ∧ v[14].toNat ≤ 15 ∧ v[15] &&& 0xE0 = 0
      ∧ v[16] &&& 0x03 ≠ 0x03 ∧ v[16] &&& 0x30 ≠ 0x30 ∧ v[16] &&& 0xCC = 0 ∧ v[17].toNat ≤ 7 ∧ v[18] ≠ 0
      ∧ (v[19].toNat ≤ 7 ∨ v[19] = 0xFF) := by
  simp only [fieldUndefined, Bool.or_eq_false_iff, Bool.and_eq_false_iff, bne_eq_false_iff_eq, beq_eq_false_iff_ne, decide_eq_false_iff_not,
    not_lt, and_assoc]

theorem vector20_eq (v : Vector Byte 20) : v = #v[v[0], v[1], v[2], v[3], v[4], v[5], v[6], v[7], v[8], v[9], v[10], v[11], v[12], v[13],
    v[14], v[15], v[16], v[17], v[18], v[19]] := by
  refine Vector.ext fun i hi => ?_
  interval_cases i <;> rfl

theorem encodeCfg_decodeCfg {v : Vector Byte 20} (h : fieldUndefined v = false) : encodeCfg (decodeCfg v) = v := by
  obtain ⟨h0, h1, h2, h3, -, -, -, -, h15, hbind, hresp, hrest, -, -, h19⟩ := fieldUndefined_eq_false.mp h
  have members : bitAt (v[0].getLsbD 0) 0 ||| bitAt (v[0].getLsbD 1) 1 ||| bitAt (v[0].getLsbD 2) 2 = v[0] := memberByte_bits v[0] h0
  have detect : bitAt (v[15].getLsbD 0) 0 ||| bitAt (v[15].getLsbD 1) 1 ||| bitAt (v[15].getLsbD 2) 2 ||| bitAt (v[15].getLsbD 3) 3
      ||| bitAt (v[15].getLsbD 4) 4 = v[15] := detectByte_detectOf v[15] h15
  conv => rhs; rw [vector20_eq v]
  simp only [encodeCfg, decodeCfg, members, detect, tag_setWidth v[1] h1, absentFF_railOf v[2] h2, absentFF_railOf v[3] h3, byte_pairNat_low,
    byte_pairNat_high, byte_toNat, bindingResponse_of v[16] hbind hresp hrest, absentFF_planOf v[19] h19]

theorem decodeCfg_encodeCfg (c : RailCfg) : decodeCfg (encodeCfg c) =
    { used := (memberByte c.used c.shedMember c.pinMember).getLsbD 0
      shedMember := (memberByte c.used c.shedMember c.pinMember).getLsbD 1
      pinMember := (memberByte c.used c.shedMember c.pinMember).getLsbD 2
      tag := (c.tag.setWidth 8).setWidth 4
      parentA := railOf (absentFF c.parentA)
      parentB := railOf (absentFF c.parentB)
      offLevel := pairNat (byte c.offLevel) (byte (c.offLevel / 256))
      goodLevel := pairNat (byte c.goodLevel) (byte (c.goodLevel / 256))
      overLevel := pairNat (byte c.overLevel) (byte (c.overLevel / 256))
      currentLimit := (byte c.currentLimit).toNat
      rampLimit := (byte c.rampLimit).toNat
      settleTime := (byte c.settleTime).toNat
      dischargeLimit := (byte c.dischargeLimit).toNat
      filterTime := (byte c.filterTime).toNat
      detect := detectOf (detectByte c.detect)
      binding := bindingOf (bindingCode c.binding ||| responseCode c.response)
      response := responseOf (bindingCode c.binding ||| responseCode c.response)
      retryLimit := (byte c.retryLimit).toNat
      retryInterval := (byte c.retryInterval).toNat
      faultPlan := planOf (absentFF c.faultPlan) } :=
  rfl

/-- Settles O30: each field both ways. -/
theorem recordBytesRoundTrip : Obligations.RecordBytesRoundTrip := by
  refine ⟨fun v h => encodeCfg_decodeCfg h, ?_⟩
  intro c hoff hgood hover hcl1 hcl hrl1 hrl hst hdl1 hdl hft hretry hri1 hri
  obtain ⟨used, shed, pin, h0⟩ := bits_memberByte c.used c.shedMember c.pinMember
  obtain ⟨tag, h1⟩ := setWidth_tag c.tag
  obtain ⟨parentA, h2⟩ := railOf_absentFF c.parentA
  obtain ⟨parentB, h3⟩ := railOf_absentFF c.parentB
  obtain ⟨detect, h15⟩ := detectOf_detectByte c.detect
  obtain ⟨binding, response, hbind, hresp, hrest⟩ := of_bindingResponse c.binding c.response
  obtain ⟨faultPlan, h19⟩ := planOf_absentFF c.faultPlan
  refine ⟨?_, fieldUndefined_eq_false.mpr ⟨h0, h1, h2, h3, byte_ne_zero hcl1 hcl, byte_ne_zero hrl1 hrl, byte_ne_zero hdl1 hdl, ?_, h15, hbind, hresp,
    hrest, ?_, byte_ne_zero hri1 hri, h19⟩⟩
  · rw [decodeCfg_encodeCfg, used, shed, pin, tag, parentA, parentB, pairNat_byte hoff, pairNat_byte hgood, pairNat_byte hover,
      toNat_byte (by omega : c.currentLimit < 256), toNat_byte (by omega : c.rampLimit < 256), toNat_byte (by omega : c.settleTime < 256),
      toNat_byte (by omega : c.dischargeLimit < 256), toNat_byte (by omega : c.filterTime < 256), detect, binding, response,
      toNat_byte (by omega : c.retryLimit < 256), toNat_byte (by omega : c.retryInterval < 256), faultPlan]
  · exact (toNat_byte (by omega)).trans_le hft
  · exact (toNat_byte (by omega)).trans_le hretry

end Sys2Proof.Machine
end

section
/-! PROOFS. An accepted WRITE_RAIL (R8): what the front end finds outside its bands, and the channel that the seven items leave. -/

namespace Sys2Proof.Machine

section Written

variable {now : Uptime} {cfg : RailCfg} {c : RailChan} {z : Zone} {oc : Bool}

/-- Outside the bands of its record the front end has nothing to remember (R187). -/
theorem noted_outside (hz : outsideBands c.cfg c.senseMv = true) (hl : withinLimitBand c.cfg c.senseMa = false) :
    (c.noteZone z).noteFlag oc = { c with bands := BandReports.clear } := by
  have outside (level : Nat) (h : (surelyAbove level c.senseMv || surelyBelow level c.senseMv) = true) : withinBand level c.senseMv = false := by
    rw [withinBand, ← Bool.not_or, h]
    rfl
  simp only [outsideBands, Bool.and_eq_true] at hz
  obtain ⟨⟨hoff, hgood⟩, hover⟩ := hz
  have forgotten (same latest : Bool) : noteCross same latest false = false := rfl
  simp only [RailChan.noteZone, RailChan.noteFlag, RailCfg.level, outside _ hoff, outside _ hgood, outside _ hover, hl, forgotten]
  rfl

/-- The comparison of a rail written UNUSED (R8 item 5): the zone and the flag that the front end finds. -/
theorem comparedAfresh_unused (hs : c.state = .unused) : comparedAfresh now z oc (.of c) = .of { c with zone := z, overCurrent := oc } := by
  unfold comparedAfresh
  split
  · rename_i hz
    have hz : c.zone = z := hz
    rw [← hz]
    rfl
  · exact railZoneArrival_unused (c := { c with zone := z, overCurrent := oc }) hs

/-- Item 6 of R8 on a rail that no arrival has started the filter of. -/
theorem writtenJudge_starts (hs : c.state = .off) (ht : c.backfeedT = none) (hf : (c.cfg.detect.backfeed && c.cfg.filterTime == 0 && c.zone != .zero) = false) :
    writtenJudge now (.of c) = .of { c with
      armBackfeed := true, backfeedT := if c.cfg.detect.backfeed = true ∧ c.zone ≠ .zero then startTimer now c.cfg.filterTime else none } := by
  have judged : writtenJudge now (.of c) = judgeOff now (.of { c with armBackfeed := true }) := if_pos ⟨hs, ht, rfl⟩
  rw [judged]
  by_cases hz : c.zone = .zero
  · rw [if_neg (fun h => h.2 hz), ← ht]
    exact if_pos hz
  · have starts : judgeOff now (.of { c with armBackfeed := true }) = startBackfeed now (.of { c with armBackfeed := true }) := if_neg hz
    rw [starts]
    cases hd : c.cfg.detect.backfeed with
    | false =>
      rw [if_neg (by simp), ← ht, startBackfeed_quiet (c := { c with armBackfeed := true }) (by simp [hd])]
    | true =>
      have filter : c.cfg.filterTime ≠ 0 := by simpa [hd, hz] using hf
      rw [if_pos ⟨rfl, hz⟩, startBackfeed_starts (c := { c with armBackfeed := true }) (by simp [hd, ht]) filter]

/-- Items 5 and 6 of R8 on a rail written OFF. -/
theorem comparedJudged_off (hs : c.state = .off) (ht : c.backfeedT = none)
    (hf : (c.cfg.detect.backfeed && c.cfg.filterTime == 0 && z != .zero) = false) :
    writtenJudge now (comparedAfresh now z oc (.of c)) = .of { c with
      zone := z, overCurrent := oc, armBackfeed := true
      backfeedT := if c.cfg.detect.backfeed = true ∧ z ≠ .zero then startTimer now c.cfg.filterTime else none } := by
  by_cases hz : c.zone = z
  · have kept : comparedAfresh now z oc (.of c) = .of { c with overCurrent := oc } := if_pos hz
    subst hz
    rw [kept, writtenJudge_starts (c := { c with overCurrent := oc }) hs ht hf]
  · have arrives : comparedAfresh now z oc (.of c) = arriveOff now (.of { c with zone := z, overCurrent := oc }) :=
      (if_neg hz).trans (railZoneArrival_off (c := { c with zone := z, overCurrent := oc }) hs)
    rw [arrives]
    by_cases h0 : z = .zero
    · have arms : arriveOff now (.of { c with zone := z, overCurrent := oc })
          = .of { c with zone := z, overCurrent := oc, backfeedT := none, armBackfeed := true } := if_pos h0
      rw [arms, writtenJudge_starts (c := { c with zone := z, overCurrent := oc, backfeedT := none, armBackfeed := true }) hs rfl hf]
    · have starts : arriveOff now (.of { c with zone := z, overCurrent := oc }) = startBackfeed now (.of { c with zone := z, overCurrent := oc }) :=
        if_neg h0
      rw [starts]
      cases armed : c.cfg.detect.backfeed && c.armBackfeed with
      | false =>
        rw [startBackfeed_quiet (c := { c with zone := z, overCurrent := oc }) (by simp [armed]), writtenJudge_starts (c := { c with zone := z, overCurrent := oc }) hs ht hf]
      | true =>
        obtain ⟨hd, ha⟩ := Bool.and_eq_true_iff.mp armed
        have filter : c.cfg.filterTime ≠ 0 := by simpa [hd, h0] using hf
        rw [startBackfeed_starts (c := { c with zone := z, overCurrent := oc }) (by simp [hd, ha, ht]) filter, if_pos ⟨hd, h0⟩, ← ha]
        exact if_neg (fun h => by cases h.2.1)

/-- What an accepted WRITE_RAIL of an OFF or UNUSED rail leaves, before the comparison of item 5 (R8 items 1 to 4). -/
theorem writtenChannel_eq (cfg : RailCfg) (c : RailChan) : writtenChannel cfg c =
    { c.cleared with
        state := if cfg.used then .off else .unused, cfg := cfg, retries := 0, armOv := true, armUv := true, armOc := true, armExt := true
        bands := BandReports.clear, armBackfeed := c.armBackfeed || c.state == .unused } :=
  rfl

/-- Items 1 to 7 of R8 outside the bands. -/
theorem railWrite_outside (hz : outsideBands cfg c.senseMv = true) (hl : withinLimitBand cfg c.senseMa = false) {c' : RailChan}
    (h : writtenJudge now (comparedAfresh now z oc (.of (writtenChannel cfg c))) = .of c') :
    railWrite now cfg z oc (.of c) = { RailStep.of c' with moved := c'.state != c.state } := by
  have noted : writtenArrival now z oc ((RailStep.of c).withRc (writtenChannel cfg c)) = comparedAfresh now z oc (.of (writtenChannel cfg c)) :=
    congrArg (fun x => comparedAfresh now z oc (.of x)) (noted_outside (c := writtenChannel cfg c) hz hl)
  have ended : railWrite now cfg z oc (.of c)
      = { writtenJudge now (writtenArrival now z oc ((RailStep.of c).withRc (writtenChannel cfg c))) with
            moved := (writtenJudge now (writtenArrival now z oc ((RailStep.of c).withRc (writtenChannel cfg c)))).rc.state != c.state } := rfl
  rw [ended, noted, h]
  rfl

end Written

/-! ### The command -/

section WriteRail

variable {s : State} {r : Rail}

theorem judgeWrite_ready (hs : (s.rail r).state = .off ∨ (s.rail r).state = .unused) (hc : s.checksPass r = true)
    (hu : (decodeCfg s.bus.staging).used = true ∨ s.usedChild r = none) : judgeWrite s r = .plain .accepted := by
  have free : (if (decodeCfg s.bus.staging).used then none else s.usedChild r) = none := by
    rcases hu with hu | hu <;> simp [hu]
  simp only [judgeWrite, configCheck_eq_none hc, free]
  rcases hs with hs | hs <;> simp [hs]

/-- A rail replaced by a transition without a declaration: its change of state, if any, is handed on. -/
theorem finish_replaced {f : RailStep → RailStep} {c : RailChan} {m : Bool} (h : f (.of (s.rail r)) = { RailStep.of c with moved := m })
    (hu : s.unawaited r = true) : finish (onRail r f (Delta.of s)) = (if m then State.changedRail else State.setRail) s r c := by
  cases m with
  | false => exact finish_kept h
  | true => exact finish_moved (c0 := c) h hu

theorem exec_writeRail_applies {u : State} (hr : s.pins.inReset = false) (h0 : s.bus.arg0 = railByte r) (hj : judgeWrite s r = .plain .accepted)
    (hw : applyWrite (setCmd 0x09 s) r = setCmd 0x09 u) : exec .writeRail s = .next (u.window 0x09 0x01 0) := by
  have owner : hostWriteRail (setCmd 0x09 s) = (.plain .accepted, setCmd 0x09 u) := by
    have operand : railOperand (setCmd 0x09 s).bus.arg0 = some r := by
      rw [show (setCmd 0x09 s).bus.arg0 = railByte r from h0]
      exact railOf_railByte r
    have judged : judgeWrite (setCmd 0x09 s) r = .plain .accepted := hj
    simp only [hostWriteRail, operand, judged, ← hw]
    rfl
  rw [exec_answered (exec_writeRail s) hr owner]
  rfl

end WriteRail

/-- Settles O29: the channel after the seven items, then the hand-on and FLT#. -/
theorem writeRailApplies : Obligations.WriteRailApplies := by
  intro s r c z oc hr h0 hs hc hcfg hz hl hzone hoc hu
  have written {c' : RailChan} {m : Bool} (hj : judgeWrite s r = .plain .accepted) (h : writtenJudge s.now (comparedAfresh s.now z oc (.of (writtenChannel c (s.rail r)))) = .of c')
      (hm : (c'.state != (s.rail r).state) = m) :
      exec .writeRail s = .next (recomputeFlt (((if m then State.changedRail else State.setRail)
        { s with freeIndex := s.freeIndex + 1 } r c').window 0x09 0x01 0)) := by
    refine exec_writeRail_applies (u := recomputeFlt ((if m then State.changedRail else State.setRail) { s with freeIndex := s.freeIndex + 1 } r c')) hr h0 hj ?_
    have zone : foundZone s.freeIndex r c (s.rail r).senseMv = z := by rw [hzone]; exact if_pos hz
    have flag : foundOverCurrent s.freeIndex r c (s.rail r).senseMa = oc := by rw [hoc]; exact if_neg (by simp [hl])
    have step := railWrite_outside hz hl h
    rw [hm] at step
    have delta : writeDelta (setCmd 0x09 s) r = onRail r (railWrite s.now c z oc) (Delta.of (nextFree (setCmd 0x09 s))) := by
      rw [← zone, ← flag, hcfg]
      rfl
    rw [applyWrite, delta, finish_replaced (s := nextFree (setCmd 0x09 s)) step ((unawaited_congr rfl rfl r).trans hu)]
    cases m with
    | false => rfl
    | true => exact congrArg recomputeFlt (changedRail_setCmd 0x09 { s with freeIndex := s.freeIndex + 1 } r c')
  refine ⟨fun hused hf => ?_, fun hused hchild => ⟨(s.rail r).armBackfeed || (s.rail r).state == .unused, ?_⟩⟩
  · have off : (writtenChannel c (s.rail r)).state = .off := if_pos hused
    have judged := judgeWrite_ready hs hc (.inl (by rw [← hcfg]; exact hused))
    have left := comparedJudged_off (now := s.now) (oc := oc) off rfl hf
    rcases hs with hs | hs
    · rw [written judged left (m := false) (by show ((writtenChannel c (s.rail r)).state != _) = _; rw [off, hs]; rfl), if_pos hs, writtenChannel_eq, if_pos hused]
      rfl
    · rw [written judged left (m := true) (by show ((writtenChannel c (s.rail r)).state != _) = _; rw [off, hs]; rfl), if_neg (show (s.rail r).state ≠ _ by rw [hs]; decide), writtenChannel_eq, if_pos hused]
      rfl
  · have unused : (writtenChannel c (s.rail r)).state = .unused := if_neg (by simp [hused])
    have childless : s.usedChild r = none := by
      refine lowestRail_eq_none.mpr fun x => ?_
      cases named : (s.rail x).cfg.names r with
      | false => rfl
      | true => simp [hchild x (mem_parents.mpr named)]
    have judged := judgeWrite_ready hs hc (.inr childless)
    have left : writtenJudge s.now (comparedAfresh s.now z oc (.of (writtenChannel c (s.rail r))))
        = .of { writtenChannel c (s.rail r) with zone := z, overCurrent := oc } := by
      rw [comparedAfresh_unused unused]
      exact if_neg (fun h => by rw [show _ = RailState.unused from unused] at h; cases h.1)
    rcases hs with hs | hs
    · rw [written judged left (m := true) (by show ((writtenChannel c (s.rail r)).state != _) = _; rw [unused, hs]; rfl), if_neg (show (s.rail r).state ≠ _ by rw [hs]; decide), writtenChannel_eq, if_neg (show ¬ c.used = true by simp [hused])]
      rfl
    · rw [written judged left (m := false) (by show ((writtenChannel c (s.rail r)).state != _) = _; rw [unused, hs]; rfl), if_pos hs, writtenChannel_eq, if_neg (show ¬ c.used = true by simp [hused])]
      rfl

end Sys2Proof.Machine
end

section
/-! PROOFS. How a chain's end leaves the part (R112 to R118): at rest, DONE, or FAILED with the failure policy. The state is told with another engine put
in (`State.withEngine`), since an end overwrites the engine whole, and with the window that a host command writes (`State.mapBus`). -/

namespace Sys2Proof.Machine

/-! ### The engine and the interface put aside -/

/-- The part with another engine. -/
def State.withEngine (s : State) (e : Engine) : State := { s with engine := e }

/-- The part with its interface changed. -/
def State.mapBus (g : HostBus → HostBus) (s : State) : State := { s with bus := g s.bus }

theorem logFault_withEngine (x : Subject) (c : Option PlanContext) (s : State) (e : Engine) :
    logFault x c (s.withEngine e) = (logFault x c s).withEngine e := by
  unfold logFault
  rw [apply_ite (fun t : State => t.withEngine e)]
  rfl

theorem logFault_mapBus (g : HostBus → HostBus) (x : Subject) (c : Option PlanContext) (s : State) :
    logFault x c (s.mapBus g) = (logFault x c s).mapBus g := by
  unfold logFault
  rw [apply_ite (State.mapBus g)]
  rfl

theorem joined_mapBus (g : HostBus → HostBus) (s : State) (x : RailSet) : (s.mapBus g).joined x = (s.joined x).mapBus g := by
  rw [joined_eq, joined_eq]
  rfl

/-! ### The next run -/

theorem takeNext_of_noneWaiting {s : State} (h : s.noneWaiting = true) : takeNext s = none := by
  obtain ⟨hs, hq⟩ : s.requests.slot = none ∧ s.requests.queue = [] := by simpa [State.noneWaiting] using h
  simp only [takeNext, hs, hq]

theorem chooseNext_of_noneWaiting (n : Nat) {w : Work} (h : w.s.noneWaiting = true) : chooseNext n w = w.on goIdle := by
  cases n with
  | zero => rfl
  | succ n => simp only [chooseNext, takeNext_of_noneWaiting h]

/-- The run that is chosen is carried on as any other (R118). -/
theorem chooseNext_eq_carryOn {w : Work} {x : RunSpec} {s1 : State} (h : takeNext w.s = some (x, s1)) :
    chooseNext w.s.waitingRuns w = carryOn (startRun x { w with s := s1 }).1 (startRun x { w with s := s1 }).2 := by
  obtain ⟨phase, started⟩ := startRun_beats x { w with s := s1 }
  have settled := settleRun_beats (startRun x { w with s := s1 }).1 (startRun x { w with s := s1 }).2
  have requests : (settleRun (startRun x { w with s := s1 }).1 (startRun x { w with s := s1 }).2).1.s.requests = s1.requests :=
    settled.requests.trans started.requests
  rw [takeNext_waitingRuns h, ← waitingRuns_congr requests]
  simp only [chooseNext, h, carryOn]
  split
  · rfl
  · rename_i settled
    rw [settled]

/-! ### The end of a chain -/

/-- The part at the end of an engine event: what follows a chain's end, and the interface changed. -/
def chainEnded (g : HostBus → HostBus) (x : Work × ChainEnd) : State := (finishWork (carryOn x.1 x.2)).mapBus g

section Ends

variable {g : HostBus → HostBus} {s : State} {e : Engine} {run : Run} {w : Work}

theorem chainEnded_rest (s : State) : chainEnded g ({ s := s, reqs := [] }, .rest) = s.mapBus g := rfl

/-- An end that starts no further run leaves an IDLE engine when nothing waits (R118 item 3). -/
theorem carryOn_idle {x : ChainEnd} {t : State} (h : settleRun w x = ({ s := t, reqs := [] }, false)) (ht : t.noneWaiting = true) :
    finishWork (carryOn w x) = goIdle t := by
  simp only [carryOn, h, chooseNext_of_noneWaiting (w := { s := t, reqs := [] }) _ ht]
  rfl

theorem settleRun_done (h : w.s.engine.run = some run) : settleRun w .done = (w.on (endRun run .done .none none), false) := by
  simp only [settleRun, h]
  rfl

/-- A run that ends DONE with nothing waiting (R112, R113). -/
theorem chainEnded_done (he : e.run = some run) (hw : s.noneWaiting = true) :
    chainEnded g ({ s := s.withEngine e, reqs := [] }, .done) = setFlag .done ((s.mapBus g).idleAfter (run.ended .done)) := by
  rw [chainEnded, carryOn_idle (t := endRun run .done .none none (s.withEngine e)) (settleRun_done he) hw]
  have reported : reportOf run .done .none none = run.ended .done := by simp [reportOf, Run.ended]
  rw [← reported]
  rfl

/-- The record of a failed run (R112 item 4, R114). -/
def failureRecord (run : Run) (s : State) : State :=
  match run.role with
  | .unwind => logEngine .unwindFailed .unwind { plan := run.failedPlan.getD run.plan, step := run.failingStep } s
  | _ => logEngine .stepFailed run.role { plan := run.plan, step := some run.step } s

theorem failureRecord_withEngine : failureRecord run (s.withEngine e) = (failureRecord run s).withEngine e := by
  unfold failureRecord
  split <;> exact logFault_withEngine _ _ _ _

theorem failureRecord_mapBus : failureRecord run (s.mapBus g) = (failureRecord run s).mapBus g := by
  unfold failureRecord
  split <;> exact logFault_mapBus _ _ _ _

/-- The last-run report of a run that fails at its step (R113). -/
def Run.failure (run : Run) (reason : Reason) (refusal : Option Result) : Report := { run.failedFor reason with refusal := refusal }

variable {reason : Reason} {refusal : Option Result}

/-- Items 1 to 4 of R112 for a run that fails at its step. -/
theorem endRun_failed (hq : run.phase ≠ .quiet) (he : e.run = some run) :
    endRun run .failed reason refusal (s.withEngine e)
      = (failureRecord run (setFlag .fail (s.idleAfter (run.failure reason refusal)))).withEngine
          { run := some { run with selection := 0 }, quietT := none, stepT := none, holdT := none, report := some (run.failure reason refusal) } := by
  have reached : run.stepReached = some run.step := if_neg hq
  have reported : reportOf run .failed reason refusal = run.failure reason refusal := by
    simp [reportOf, reached, Run.failure, Run.failedFor, Run.ended]
  have ended : outcomeFlag .failed ((mapRun (fun x => { x with selection := 0 }) ((s.withEngine e).setEngineTimers none none none)).setReport
      (run.failure reason refusal)) = (setFlag .fail (s.idleAfter (run.failure reason refusal))).withEngine
        { run := some { run with selection := 0 }, quietT := none, stepT := none, holdT := none, report := some (run.failure reason refusal) } := by
    simp only [mapRun, State.setEngineTimers, State.withEngine, State.setRun, he]
    rfl
  rw [endRun, reported, ended, ← failureRecord_withEngine]
  cases hrole : run.role <;> simp only [outcomeRecord, failureRecord, hrole, reached]

/-- The part after a failed run has ended (R112), the engine put aside. -/
def State.failed (s : State) (run : Run) (x : Report) : State := failureRecord run (setFlag .fail (s.idleAfter x))

theorem failed_elsewhere (run : Run) (x : Report) : (s.idleAfter x).SameElsewhere (s.failed run x) := by
  unfold State.failed failureRecord
  split <;> exact (State.SameElsewhere.setNotify _ _).trans (.logFault _ _ _)

theorem failed_mapBus (run : Run) (x : Report) : (s.mapBus g).failed run x = (s.failed run x).mapBus g := by
  unfold State.failed
  rw [← failureRecord_mapBus]
  rfl

theorem failed_plan (run : Run) (x : Report) (p : PlanNo) : (s.failed run x).plan p = s.plan p := by
  unfold State.plan
  rw [(failed_elsewhere run x).store]
  rfl

theorem failed_ready (run : Run) (x : Report) (p : PlanNo) : (s.failed run x).ready p = s.ready p :=
  ready_congr (failed_elsewhere run x).store p

theorem failed_noneWaiting (run : Run) (x : Report) : (s.failed run x).noneWaiting = s.noneWaiting := by
  unfold State.noneWaiting
  rw [(failed_elsewhere run x).requests]
  rfl

/-- The engine that a failed run leaves until the next is chosen. -/
def Run.failedEngine (run : Run) (x : Report) : Engine :=
  { run := some { run with selection := 0 }, quietT := none, stepT := none, holdT := none, report := some x }

theorem goIdle_failed (run : Run) (x : Report) : goIdle ((s.failed run x).withEngine (run.failedEngine x)) = s.failed run x := by
  have idle : (s.failed run x).engine = (s.idleAfter x).engine := (failed_elsewhere run x).engine
  show (s.failed run x).withEngine (s.idleAfter x).engine = _
  rw [← idle]
  rfl

/-- How a failed run is settled by the answer of the failure policy (R115, R117). -/
def policySettled (x : Work × Option ChainEnd) : Work × Bool :=
  match x with
  | (w1, none) => (w1, false)
  | (w1, some .rest) => (w1, true)
  | (w1, some e1) =>
    match w1.s.engine.run with
    | none => (w1, false)
    | some run1 => (w1.on (endChain run1 e1), false)

/-- A failed run is judged by the failure policy (R115). -/
theorem settleRun_failed (hq : run.phase ≠ .quiet) (he : e.run = some run) :
    settleRun { s := s.withEngine e, reqs := [] } (.failed reason refusal) = policySettled (failurePolicy run
      { s := (s.failed run (run.failure reason refusal)).withEngine (run.failedEngine (run.failure reason refusal)), reqs := [] }) := by
  have ended : Work.on { s := s.withEngine e, reqs := [] } (endChain run (.failed reason refusal))
      = { s := (s.failed run (run.failure reason refusal)).withEngine (run.failedEngine (run.failure reason refusal)), reqs := [] } :=
    congrArg (fun t : State => ({ s := t, reqs := [] } : Work)) (endRun_failed hq he)
  have running : (s.withEngine e).engine.run = some run := he
  simp only [settleRun, running, ended]
  rfl

/-- A failed run without an unwind run leaves an IDLE engine when nothing waits (R115, R118). -/
theorem chainEnded_failed (hq : run.phase ≠ .quiet) (he : e.run = some run) (hw : s.noneWaiting = true)
    (hu : run.role = .normal → (s.plan run.plan).unwind = none) :
    chainEnded g ({ s := s.withEngine e, reqs := [] }, .failed reason refusal) = (s.mapBus g).failed run (run.failure reason refusal) := by
  have policy : failurePolicy run { s := (s.failed run (run.failure reason refusal)).withEngine (run.failedEngine (run.failure reason refusal)), reqs := [] }
      = ({ s := (s.failed run (run.failure reason refusal)).withEngine (run.failedEngine (run.failure reason refusal)), reqs := [] }, none) := by
    have plan : ((s.failed run (run.failure reason refusal)).withEngine (run.failedEngine (run.failure reason refusal))).plan run.plan = s.plan run.plan :=
      failed_plan run _ _
    unfold failurePolicy
    split
    · rename_i u hrole hunwind
      rw [plan, hu hrole] at hunwind
      cases hunwind
    · rfl
  have settled := settleRun_failed (s := s) (reason := reason) (refusal := refusal) hq he
  rw [policy] at settled
  rw [chainEnded, carryOn_idle settled (by rw [← hw]; exact failed_noneWaiting run _), goIdle_failed, failed_mapBus]

/-- PLAN_MISSING when the unwind plan is not READY (R116). -/
theorem chainEnded_planMissing {u : PlanNo} (hq : run.phase ≠ .quiet) (he : e.run = some run) (hw : s.noneWaiting = true) (hr : run.role = .normal)
    (hu : (s.plan run.plan).unwind = some u) (hn : s.ready u = false) :
    chainEnded g ({ s := s.withEngine e, reqs := [] }, .failed reason refusal)
      = logEngine .planMissing .normal { plan := run.plan, step := some run.step } ((s.mapBus g).failed run (run.failure reason refusal)) := by
  have plan : ((s.failed run (run.failure reason refusal)).withEngine (run.failedEngine (run.failure reason refusal))).plan run.plan = s.plan run.plan :=
    failed_plan run _ _
  have unready : ((s.failed run (run.failure reason refusal)).withEngine (run.failedEngine (run.failure reason refusal))).ready u = false :=
    (failed_ready run _ u).trans hn
  have policy : failurePolicy run { s := (s.failed run (run.failure reason refusal)).withEngine (run.failedEngine (run.failure reason refusal)), reqs := [] }
      = ({ s := (logEngine .planMissing .normal { plan := run.plan, step := some run.step } (s.failed run (run.failure reason refusal))).withEngine
            (run.failedEngine (run.failure reason refusal)), reqs := [] }, none) := by
    simp only [failurePolicy, plan, hr, hu, unready]
    exact congrArg (fun t : State => (({ s := t, reqs := [] } : Work), (none : Option ChainEnd))) (logFault_withEngine _ _ _ _)
  have settled := settleRun_failed (s := s) (reason := reason) (refusal := refusal) hq he
  rw [policy] at settled
  have logged := State.SameElsewhere.logFault (.engine .planMissing .normal) (some { plan := run.plan, step := some run.step })
    (s.failed run (run.failure reason refusal))
  have idle : ((s.failed run (run.failure reason refusal))).engine = (s.idleAfter (run.failure reason refusal)).engine := (failed_elsewhere run _).engine
  rw [chainEnded, carryOn_idle settled]
  · rw [failed_mapBus]
    refine (congrArg (State.mapBus g) ?_).trans (logFault_mapBus ..).symm
    show (logFault _ _ _).withEngine (s.idleAfter (run.failure reason refusal)).engine = _
    rw [← idle, ← logged.engine]
    rfl
  · refine Eq.trans ?_ ((failed_noneWaiting run (run.failure reason refusal)).trans hw)
    exact congrArg (fun x : RequestUnit => x.slot.isNone && x.queue.isEmpty) logged.requests

/-! ### The unwind run -/

/-- A run that unwinds goes on unwinding until it ends. -/
theorem Beat.unwinding {s t : State} (h : Beat s t) (hs : ∀ run, s.engine.run = some run → run.role = .unwind) :
    ∀ run, t.engine.run = some run → run.role = .unwind := by
  cases h with
  | timers | report | flag | changed | shed => exact hs
  | edit _ f hf =>
    intro run hrun
    obtain ⟨run', hrun', rfl⟩ := Option.map_eq_some_iff.mp hrun
    exact (hf run').2.trans (hs run' hrun')
  | record _ kind role c =>
    rw [logEngine, logFault_engine]
    exact hs
  | issued w kind st run hr =>
    rw [((issue_elsewhere kind st w.s).trans (absorb_elsewhere _ w)).engine]
    exact hs
  | unwind =>
    intro run hrun
    cases hrun
    rfl

theorem Beats.unwinding {s t : State} (h : Beats s t) (hs : ∀ run, s.engine.run = some run → run.role = .unwind) :
    ∀ run, t.engine.run = some run → run.role = .unwind := by
  induction h with
  | refl => exact hs
  | tail _ hb ih => exact hb.unwinding ih

/-- A chain of an unwind run ends its run without a further policy (R115). -/
theorem settleRun_of_unwinding (x : ChainEnd) (hu : ∀ run, w.s.engine.run = some run → run.role = .unwind) :
    settleRun w x = policySettled (w, some x) := by
  cases hr : w.s.engine.run with
  | none => cases x <;> simp only [settleRun, policySettled, hr]
  | some run =>
    have policy (w' : Work) : failurePolicy run w' = (w', none) := by simp only [failurePolicy, hu run hr]
    cases x with
    | rest => rfl
    | done => simp only [settleRun, policySettled, hr]
    | failed reason refusal => simp only [settleRun, policySettled, hr, policy]

/-- The unwind run of a failed run is started and carried on in the same event (R115). -/
theorem chainEnded_unwinds {u : PlanNo} (hq : run.phase ≠ .quiet) (he : e.run = some run) (hr : run.role = .normal)
    (hu : (s.plan run.plan).unwind = some u) (hn : s.ready u = true) :
    chainEnded g ({ s := s.withEngine e, reqs := [] }, .failed reason refusal)
      = chainEnded g (runSteps (s.plan u).length 0
          { s := (s.failed run (run.failure reason refusal)).setRun (some (run.unwinding u)), reqs := [] }) := by
  obtain ⟨x, hx⟩ : ∃ x, x = run.failure reason refusal := ⟨_, rfl⟩
  obtain ⟨w0, hw0⟩ : ∃ w0 : Work, w0 = { s := (s.failed run x).setRun (some (run.unwinding u)), reqs := [] } := ⟨_, rfl⟩
  have plan : ((s.failed run x).withEngine (run.failedEngine x)).plan run.plan = s.plan run.plan := failed_plan run _ _
  have ready : ((s.failed run x).withEngine (run.failedEngine x)).ready u = true := (failed_ready run _ u).trans hn
  have engine : (s.failed run x).engine = (s.idleAfter x).engine := (failed_elsewhere run x).engine
  have entered : (((s.failed run x).withEngine (run.failedEngine x)).setRun (some ((unwindSpec run u).context .waiting))).setEngineTimers none none none
      = (s.failed run x).setRun (some (run.unwinding u)) := by
    unfold State.setRun
    rw [engine]
    rfl
  have started : startRun (unwindSpec run u) { s := (s.failed run x).withEngine (run.failedEngine x), reqs := [] } = runSteps (s.plan u).length 0 w0 := by
    have length : ((s.failed run x).withEngine (run.failedEngine x)).plan u = s.plan u := failed_plan run _ _
    rw [startRun, if_neg (fun h => by cases h.1)]
    simp only [Work.on, entered, ← hw0]
    exact congrArg (fun p : Plan => runSteps p.length 0 w0) length
  have policy : failurePolicy run { s := (s.failed run x).withEngine (run.failedEngine x), reqs := [] }
      = ((runSteps (s.plan u).length 0 w0).1, some (runSteps (s.plan u).length 0 w0).2) := by
    simp only [failurePolicy, plan, hr, hu, ready, if_true, started]
  have settled := settleRun_failed (s := s) (reason := reason) (refusal := refusal) hq he
  rw [← hx, policy] at settled
  have unwinding : ∀ run1, (runSteps (s.plan u).length 0 w0).1.s.engine.run = some run1 → run1.role = .unwind :=
    (runSteps_beats _ _ _).unwinding (fun run1 h => by rw [hw0] at h; cases h; rfl)
  have same : settleRun { s := s.withEngine e, reqs := [] } (.failed reason refusal)
      = settleRun (runSteps (s.plan u).length 0 w0).1 (runSteps (s.plan u).length 0 w0).2 := by
    rw [settled, settleRun_of_unwinding _ unwinding]
  rw [chainEnded, chainEnded, carryOn, same, ← hx, ← hw0]
  rfl

end Ends

end Sys2Proof.Machine
end

section
/-! PROOFS. The start of a step (R100 to R108), by its kind, up to the next rest or end. What follows a failure is a parameter (`Judges`), since the unwind
run that a failure starts takes the same steps. -/

namespace Sys2Proof.Machine

/-- What is claimed of a failed run holds of the part after its chain has ended. -/
def Judges (g : HostBus → HostBus) (failed : State → Run → Report → State → Prop) : Prop :=
  ∀ (s : State) (e : Engine) (run : Run) (p : Phase) (sel : RailSet) (reason : Reason) (refusal : Option Result), p ≠ .quiet →
    e.run = some { run with phase := p, selection := sel } →
      failed (s.mapBus g) run (run.failure reason refusal) (chainEnded g ({ s := s.withEngine e, reqs := [] }, .failed reason refusal))

/-- The part while a run carries out the step at which it stands. -/
def State.carrying (s : State) (run : Run) : Work := { s := s.setRun (some { run with phase := .waiting }), reqs := [] }

/-- The part after the step at which a run stands has completed. -/
def State.completedEnd (g : HostBus → HostBus) (s : State) (run : Run) : State :=
  chainEnded g (afterStep (s.stepRec run run.step.val) (s.carrying run, .completed)
    (runSteps ((s.plan run.plan).length - (run.step.val + 1)) (run.step.val + 1)))

/-- The part after the step at which a run stands has been started. -/
def State.startedEnd (g : HostBus → HostBus) (s : State) (run : Run) : State :=
  chainEnded g (afterStep (s.stepRec run run.step.val) (startStep (s.stepRec run run.step.val) (s.carrying run))
    (runSteps ((s.plan run.plan).length - (run.step.val + 1)) (run.step.val + 1)))

section Steps

variable {g : HostBus → HostBus} {s : State} {run : Run}

/-- A chain that goes on to a step of the plan starts that step (R102). -/
theorem chainEnded_runSteps {i : StepNo} (h : i.val < (s.plan run.plan).length) :
    chainEnded g (runSteps ((s.plan run.plan).length - i.val) i.val { s := s.setRun (some run), reqs := [] }) = s.startedEnd g { run with step := i } := by
  obtain ⟨k, hk⟩ : ∃ k, (s.plan run.plan).length - i.val = k + 1 := ⟨(s.plan run.plan).length - i.val - 1, by omega⟩
  have rest : (s.plan run.plan).length - (i.val + 1) = k := by omega
  have begun : beginStep i.val (s.setRun (some run)) = (s.carrying { run with step := i }).s := by
    have index : Fin.ofNat 16 i.val = i := Fin.ofNat_val_eq_self i
    show s.setRun (some { run with phase := .waiting, step := Fin.ofNat 16 i.val }) = _
    rw [index]
    rfl
  rw [hk, State.startedEnd, rest]
  simp only [runSteps, Work.on, begun]
  rfl

theorem enterHeld_carrying (t : State) (units : Byte) :
    enterHeld units.toNat (t.carrying run).s = t.holding run units := by
  have zero : units.toNat = 0 ↔ units = 0 := by rw [← BitVec.toNat_inj]; rfl
  unfold enterHeld State.holding
  simp only [zero]
  rfl

/-- A step that rests ends its chain. -/
theorem startedEnd_rest {t : State} (h : startStep (s.stepRec run run.step.val) (s.carrying run) = ({ s := t, reqs := [] }, .rest)) :
    s.startedEnd g run = t.mapBus g := by
  rw [State.startedEnd, h]
  rfl

theorem startedEnd_pause (h : (s.stepRec run run.step.val).kind = some .pause) : s.startedEnd g run = (s.mapBus g).pausing run := by
  rw [startedEnd_rest (t := startStepTimer (10 * (s.stepRec run run.step.val).time.toNat) (s.carrying run).s)]
  · rfl
  · simp only [startStep, h]
    rfl

theorem startedEnd_hold (h : (s.stepRec run run.step.val).kind = some .hold) :
    s.startedEnd g run = (s.mapBus g).holding run (s.stepRec run run.step.val).time := by
  rw [startedEnd_rest (t := s.holding run (s.stepRec run run.step.val).time)]
  · rfl
  · rw [← enterHeld_carrying]
    simp only [startStep, h]
    rfl

/-- What follows the completion of a step: a hold, a PAUSE, or the end DONE (R102). -/
theorem completedEnd_stepCompleted (s : State) (run : Run) : (s.mapBus g).stepCompleted run (s.completedEnd g run) := by
  refine ⟨fun hold => ?_, fun free => ⟨fun i hi hp => ?_, fun last hw => ?_⟩⟩
  · have held : s.completedEnd g run
        = chainEnded g ((s.carrying run).on (enterHeld (s.stepRec run run.step.val).limit.toNat), .rest) :=
      congrArg (chainEnded g) (if_pos hold)
    rw [held]
    exact (chainEnded_rest _).trans (congrArg (State.mapBus g) (enterHeld_carrying s _))
  · have next : s.completedEnd g run
        = chainEnded g (runSteps ((s.plan run.plan).length - (run.step.val + 1)) (run.step.val + 1) (s.carrying run)) :=
      congrArg (chainEnded g) (if_neg (by exact Bool.eq_false_iff.mp free))
    obtain ⟨hlt, hkind⟩ : i.val < (s.plan run.plan).length ∧ (s.stepRec run i.val).kind = some .pause := by
      have hp : s.pauseAt run.plan i.val = true := hp
      simpa [State.pauseAt, State.stepRec] using hp
    rw [next, ← hi]
    exact (chainEnded_runSteps (s := s) (run := { run with phase := .waiting }) hlt).trans (startedEnd_pause (run := { run with step := i }) hkind)
  · have none_left : (s.plan run.plan).length - (run.step.val + 1) = 0 := Nat.sub_eq_zero_of_le last
    have ended : s.completedEnd g run = chainEnded g (s.carrying run, .done) := by
      rw [State.completedEnd, none_left]
      exact congrArg (chainEnded g) (if_neg (by exact Bool.eq_false_iff.mp free))
    rw [ended]
    exact (chainEnded_done (s := s) (e := { s.engine with run := some { run with phase := .waiting } }) rfl hw).trans (by
      rw [show ({ run with phase := .waiting } : Run).ended .done = run.ended .done by simp [Run.ended]])

/-! ### AWAIT -/

theorem stepTargets_group {st : StepRec} (h : st.group = true) : s.stepTargets st = s.selected st.tag st.mask := by
  unfold State.stepTargets State.selected
  simp only [h, if_true]

theorem stepTargets_single {st : StepRec} (h : st.group = false) {r : Rail} (ht : railOperand st.target = some r) : s.stepTargets st = [r] := by
  have target : st.target = railByte r := railOf_eq_some.mp ht
  have named (x : Rail) : (st.target == railByte x) = (x == r) := by
    rw [target, Bool.eq_iff_iff, beq_iff_eq, beq_iff_eq]
    exact ⟨fun he => (Option.some.inj ((railOf_railByte x).symm.trans (he ▸ railOf_railByte r))), fun he => he ▸ rfl⟩
  unfold State.stepTargets
  simp only [h, Bool.false_eq_true, if_false, named]
  exact allRails_filter_eq r

theorem stepTargets_nobody {st : StepRec} (h : st.group = false) (ht : railOperand st.target = none) : s.stepTargets st = [] := by
  have above : 16 ≤ st.target.toNat := railOf_eq_none.mp ht
  refine List.filter_eq_nil_iff.mpr fun r _ => ?_
  simp only [h, Bool.false_eq_true, if_false, beq_iff_eq]
  intro he
  rw [he] at ht
  exact absurd ((railOf_railByte r).symm.trans ht) (by simp)

/-- An AWAIT step selects the rails that its target names (R104). -/
theorem stepSelection_eq (s : State) (st : StepRec) : stepSelection s st = RailSet.ofList (s.stepTargets st) := by
  unfold stepSelection
  cases h : st.group with
  | true => rw [if_pos rfl, stepTargets_group h]
  | false =>
    rw [if_neg (by simp)]
    cases ht : railOperand st.target with
    | none => rw [stepTargets_nobody h ht]; rfl
    | some r => rw [stepTargets_single h ht]; rfl

theorem met_on (st : RailState) : StepKind.met .awaitOn st = (st == .on) := rfl

theorem met_off (st : RailState) : StepKind.met .awaitOff st = st.countsOff := by cases st <;> rfl

theorem lost_on (st : RailState) : StepKind.lost .awaitOn st = !st.active := rfl

theorem lost_off (st : RailState) : StepKind.lost .awaitOff st = (st.active || st == .unused) := rfl

/-- The judgement of an AWAIT step over the rails of a list (R105, R106). -/
theorem judgeAwait_ofList {k : StepKind} (hk : k = .awaitOn ∨ k = .awaitOff) (s : State) (l : List Rail) :
    judgeAwait k s (RailSet.ofList l) =
      if ∀ r ∈ l, k.met (s.rail r).state = true then .done
      else if ∃ r ∈ l, k.lost (s.rail r).state = true then .failed
      else .waiting := by
  have member (r : Rail) : r ∈ RailSet.rails (RailSet.ofList l) ↔ r ∈ l := by rw [mem_rails, has_ofList, List.contains_iff_mem]
  rcases hk with rfl | rfl
  · simp only [judgeAwait, judgeAwaitOn, ← met_on, ← lost_on, List.all_eq_true, List.any_eq_true, member]
  · simp only [judgeAwait, judgeAwaitOff, ← met_off, ← lost_off, List.all_eq_true, List.any_eq_true, member]

theorem not_met_of_lost {k : StepKind} (hk : k = .awaitOn ∨ k = .awaitOff) {st : RailState} (h : k.lost st = true) : k.met st = false := by
  rcases hk with rfl | rfl
  · rw [lost_on] at h
    cases st with
    | on => cases h
    | _ => rfl
  · rw [lost_off] at h
    cases st with
    | off | faulted | locked => cases h
    | _ => rfl

end Steps

end Sys2Proof.Machine
end

section
/-! PROOFS. AWAIT steps and issuing steps (R101, R104 to R106), and the start of a step of any kind. -/

namespace Sys2Proof.Machine

section Steps

variable {g : HostBus → HostBus} {s : State} {run : Run} {failed : State → Run → Report → State → Prop}

/-- A step that fails at its start leaves its run to what follows a failure. -/
theorem startedEnd_failed (hf : Judges g failed) {e : Engine} {sel : RailSet} {reason : Reason} {refusal : Option Result}
    (h : startStep (s.stepRec run run.step.val) (s.carrying run) = ({ s := s.withEngine e, reqs := [] }, .failed reason refusal))
    (he : e.run = some { run with phase := .waiting, selection := sel }) :
    failed (s.mapBus g) run (run.failure reason refusal) (s.startedEnd g run) := by
  rw [State.startedEnd, h]
  exact hf s e run .waiting sel reason refusal (by decide) he

/-! ### AWAIT -/

theorem startStep_await {k : StepKind} (hk : k = .awaitOn ∨ k = .awaitOff) {st : StepRec} (h : st.kind = some k) (w : Work) :
    startStep st w = startAwait k st w := by
  rcases hk with rfl | rfl <;> simp only [startStep, h]

theorem startAwait_emptyGroup {k : StepKind} {st : StepRec} (hg : st.group = true) (hn : s.stepTargets st = []) :
    startAwait k st (s.carrying run) = (s.carrying run, .failed .stepRefused (some .emptyGroup)) := by
  have nobody : stepSelection (s.carrying run).s st = 0 := (stepSelection_eq s st).trans (by rw [hn]; rfl)
  exact if_pos ⟨hg, nobody⟩

/-- An AWAIT step with its selection made and its timer started (R104). -/
theorem startAwait_eq {k : StepKind} {st : StepRec} (hn : s.stepTargets st ≠ []) :
    startAwait k st (s.carrying run) =
      match judgeAwait k s (RailSet.ofList (s.stepTargets st)) with
      | .done => ((s.setEngineTimers s.engine.quietT none s.engine.holdT).carrying { run with selection := 0 }, .completed)
      | .failed => ((s.setEngineTimers s.engine.quietT none s.engine.holdT).carrying { run with selection := 0 }, .failed .awaitImpossible none)
      | .waiting => ({ s := s.awaiting run (RailSet.ofList (s.stepTargets st)) st.time, reqs := [] }, .rest) := by
  have selection : stepSelection (s.carrying run).s st = RailSet.ofList (s.stepTargets st) := stepSelection_eq s st
  have someone : ¬ (st.group = true ∧ RailSet.ofList (s.stepTargets st) = 0) := fun h => hn (ofList_eq_zero.mp h.2)
  have begun : (s.carrying run).on (fun t => startStepTimer (10 * st.time.toNat) (setSelection (RailSet.ofList (s.stepTargets st)) t))
      = { s := s.awaiting run (RailSet.ofList (s.stepTargets st)) st.time, reqs := [] } := rfl
  have judged : judgeAwait k (s.awaiting run (RailSet.ofList (s.stepTargets st)) st.time) (RailSet.ofList (s.stepTargets st))
      = judgeAwait k s (RailSet.ofList (s.stepTargets st)) := rfl
  unfold startAwait
  simp only [selection, if_neg someone, begun, judged]
  cases judgeAwait k s (RailSet.ofList (s.stepTargets st)) <;> rfl

/-- The clause on AWAIT steps. -/
theorem startedEnd_await (hf : Judges g failed) {k : StepKind} {st : StepRec} (hst : st = s.stepRec run run.step.val) (hkind : st.kind = some k)
    (hk : k = .awaitOn ∨ k = .awaitOff) (hn : s.stepTargets st ≠ []) :
    ((∀ r ∈ s.stepTargets st, k.met (s.rail r).state = true) →
        ((s.mapBus g).setEngineTimers s.engine.quietT none s.engine.holdT).stepCompleted { run with selection := 0 } (s.startedEnd g run))
      ∧ ((∃ r ∈ s.stepTargets st, k.lost (s.rail r).state = true) →
        failed (s.mapBus g) run (run.failedFor .awaitImpossible) (s.startedEnd g run))
      ∧ ((∀ r ∈ s.stepTargets st, k.lost (s.rail r).state = false) → (∃ r ∈ s.stepTargets st, k.met (s.rail r).state = false) →
        s.startedEnd g run = (s.mapBus g).awaiting run (RailSet.ofList (s.stepTargets st)) st.time) := by
  have started := (startStep_await hk hkind (s.carrying run)).trans (startAwait_eq hn)
  rw [judgeAwait_ofList hk] at started
  refine ⟨fun met => ?_, fun lost => ?_, fun kept unmet => ?_⟩
  · rw [if_pos met, hst] at started
    have ended : s.startedEnd g run = (s.setEngineTimers s.engine.quietT none s.engine.holdT).completedEnd g { run with selection := 0 } := by
      rw [State.startedEnd, started]
      rfl
    rw [ended]
    exact completedEnd_stepCompleted (g := g) (s.setEngineTimers s.engine.quietT none s.engine.holdT) { run with selection := 0 }
  · obtain ⟨r, hr, hl⟩ := lost
    rw [if_neg (fun met => absurd (met r hr) (by simp [not_met_of_lost hk hl])), if_pos ⟨r, hr, hl⟩, hst] at started
    exact startedEnd_failed hf (sel := 0) started rfl
  · obtain ⟨r, hr, hu⟩ := unmet
    rw [if_neg (fun met => absurd (met r hr) (by simp [hu])), if_neg (fun ⟨x, hx, hl⟩ => absurd hl (by simp [kept x hx])), hst] at started
    rw [startedEnd_rest started, hst]
    rfl

/-! ### Issuing steps -/

/-- The part after several rails have changed in an issuing step (R97, R101). -/
def State.issued (s : State) (l : List Rail) (c : Rail → RailChan) : State := (s.mapRails l c).joined (RailSet.ofList l)

theorem issued_nil (s : State) (c : Rail → RailChan) : s.issued [] c = s := by
  rw [State.issued, mapRails_nil]
  exact joined_zero s

theorem issued_eq (s : State) (l : List Rail) (c : Rail → RailChan) :
    s.issued l c = (s.mapRails l c).setNotify (s.notify.joinedBy (RailSet.ofList l)) := joined_eq _ _

theorem issued_mapBus (g : HostBus → HostBus) (s : State) (l : List Rail) (c : Rail → RailChan) :
    (s.mapBus g).issued l c = (s.issued l c).mapBus g := joined_mapBus g (s.mapRails l c) _

/-- What an issued command hands on when its rails move and do nothing else (R103). -/
theorem absorb_movedDelta (l : List Rail) (c : Rail → RailChan) :
    absorb (movedDelta (s.carrying run).s l c) (s.carrying run) = (s.issued l c).carrying run := by
  have joined : (RailSet.rails (RailSet.ofList l)).foldl (fun t r => addChanged r t) ((s.carrying run).s.mapRails l c)
      = ((s.issued l c).carrying run).s := by
    rw [foldl_addChanged, ofList_rails, joined_eq, issued_eq]
    rfl
  show ({ s := _, reqs := _ } : Work) = _
  exact congrArg (fun t : State => ({ s := t, reqs := [] } : Work)) joined

/-- The kinds that issue a command. -/
def StepKind.issues (k : StepKind) : Bool := k == .raise || k == .lower || k == .clear

theorem startStep_issues {k : StepKind} (hk : k.issues = true) {st : StepRec} (h : st.kind = some k) (w : Work) : startStep st w = issueStep k st w := by
  cases k with
  | raise | lower | clear => simp only [startStep, h]
  | _ => cases hk

/-- An issuing step, by the verdict on its command (R101). -/
theorem startedEnd_issues (hf : Judges g failed) {k : StepKind} {v : Verdict} {l : List Rail} {c : Rail → RailChan} (hk : k.issues = true)
    (h : (s.stepRec run run.step.val).kind = some k)
    (hi : issue k (s.stepRec run run.step.val) (s.carrying run).s = (v, movedDelta (s.carrying run).s l c)) :
    (v.code.isRefusal = false → ((s.mapBus g).issued l c).stepCompleted run (s.startedEnd g run))
      ∧ (v.code.isRefusal = true → failed ((s.mapBus g).issued l c) run (run.refusedAt v.code) (s.startedEnd g run)) := by
  have started : startStep (s.stepRec run run.step.val) (s.carrying run)
      = ((s.issued l c).carrying run, if v.code.isRefusal then .failed .stepRefused (some v.code) else .completed) := by
    rw [startStep_issues hk h, issueStep, hi]
    simp only [absorb_movedDelta]
  have plans : (s.issued l c).store = s.store := by rw [issued_eq]; rfl
  have record : (s.issued l c).stepRec run run.step.val = s.stepRec run run.step.val := by
    unfold State.stepRec State.plan
    rw [plans]
  have length : ((s.issued l c).plan run.plan).length = (s.plan run.plan).length := by
    unfold State.plan
    rw [plans]
  rw [issued_mapBus, State.startedEnd, started]
  refine ⟨fun pass => ?_, fun refused => ?_⟩
  · rw [pass, ← record, ← length]
    exact completedEnd_stepCompleted (s.issued l c) run
  · rw [refused]
    exact hf (s.issued l c) { (s.issued l c).engine with run := some { run with phase := .waiting } } run .waiting run.selection .stepRefused
      (some v.code) (by decide) rfl

end Steps

/-! ### The verdict on an issued command -/

section Verdicts

variable {s : State} {st : StepRec} {judge : State → Rail → Verdict} {act : Rail → Delta → Delta} {passes : Rail → Bool}
  {refusal : Rail → Option Result} {c : Rail → RailChan} {acc ref : List Rail}

theorem movedDelta_nil (s : State) (c : Rail → RailChan) : movedDelta s [] c = Delta.of s := by
  rw [movedDelta, mapRails_nil]
  rfl

theorem filter_singleton (r : Rail) (p : Rail → Bool) : [r].filter p = if p r then [r] else [] := by
  cases h : p r <;> simp [h]

/-- A single-rail command changes its rail when it is accepted, and nothing else. -/
theorem railCommand_eq {r : Rail} (h : Answered (judge s r) (passes r) (refusal r)) (ha : acc = if passes r && (refusal r).isNone then [r] else [])
    (hm : ∀ r ∈ acc, Moves1 s act c r) : railCommand judge act r s = (judge s r, movedDelta s acc c) := by
  cases hp : passes r && (refusal r).isNone with
  | true =>
    have accepted : (judge s r).code = .accepted := by simpa [hp] using h.accepted_eq
    obtain rfl : acc = [r] := by rw [ha, hp]; rfl
    have moved : act r (Delta.of s) = movedDelta s [r] c := foldl_moves (by simp) hm
    rw [← moved]
    exact congrArg (Prod.mk (judge s r)) (if_pos accepted)
  | false =>
    have other : (judge s r).code ≠ .accepted := by simpa [hp] using h.accepted_eq
    obtain rfl : acc = [] := by rw [ha, hp]; rfl
    rw [movedDelta_nil]
    exact congrArg (Prod.mk (judge s r)) (if_neg other)

/-- The verdict on a command that judges each rail by itself, on one rail or on a group, and the rails that it changes (R68, R69, R101). -/
theorem issueEach (h : ∀ r, Answered (judge s r) (passes r) (refusal r)) (hn : s.stepTargets st ≠ [])
    (ha : acc = (s.stepTargets st).filter (fun r => passes r && (refusal r).isNone)) (hr : ref = (s.stepTargets st).filter (fun r => (refusal r).isSome))
    (hm : ∀ r ∈ acc, Moves1 s act c r) :
    ∃ v : Verdict, (if st.group then groupEach judge act st.tag st.mask s else railCommandOf judge act st.target s) = (v, movedDelta s acc c)
      ∧ (ref = [] → v.code.isRefusal = false) ∧ (ref ≠ [] → acc ≠ [] → v.code = .partialResult)
      ∧ ∀ (x : Rail) (l : List Rail) (k : Result), acc = [] → ref = x :: l → refusal x = some k → v.code = k := by
  cases hg : st.group with
  | true =>
    have sorted : Sorted judge s (s.stepTargets st) acc ref := .of_answered h ha hr
    refine ⟨_, (if_pos rfl).trans (sorted.groupEach_eq (stepTargets_group hg).symm hn hm), fun hnil => ?_, fun hsome hne => ?_, fun x l k hnil hcons hk => ?_⟩
    · rw [sorted.verdict_accepted hnil]
      rfl
    · rw [sorted.verdict_partial hsome hne]
    · rw [sorted.verdict_refused hcons hnil]
      exact ((h x).refused k hk).1
  | false =>
    cases ht : railOperand st.target with
    | none => exact absurd (stepTargets_nobody hg ht) hn
    | some r =>
      rw [stepTargets_single hg ht, filter_singleton] at ha hr
      have single : (if false = true then groupEach judge act st.tag st.mask s else railCommandOf judge act st.target s) = railCommand judge act r s := by
        simp [railCommandOf, ht]
      refine ⟨judge s r, single.trans (railCommand_eq (h r) ha hm), fun hnil => ?_, fun hsome hne => ?_, fun x l k hnil hcons hk => ?_⟩
      · rw [(h r).isRefusal_eq]
        rw [hr] at hnil
        cases hs : (refusal r).isSome with
        | true => rw [hs] at hnil; cases hnil
        | false => rfl
      · cases hs : refusal r with
        | none => rw [hr, hs] at hsome; exact absurd rfl hsome
        | some k => rw [ha, hs] at hne; simp at hne
      · have named : x = r := by
          rw [hr] at hcons
          split at hcons
          · exact (List.cons.inj hcons).1.symm
          · cases hcons
        exact ((h r).refused k (named ▸ hk)).1

end Verdicts

end Sys2Proof.Machine
end

section
/-! PROOFS. LOWER as a step and as a command (R15, R70, R101), and the start of a step of any kind put together. -/

namespace Sys2Proof.Machine

/-! ### LOWER judged -/

section Lower

variable {s : State} {r : Rail}

theorem activeChild_eq_some {x : Rail} (hx : s.childActive r x) (hl : ∀ y : Rail, y < x → ¬ s.childActive r y) :
    s.activeChild r (fun _ => true) = some x := by
  refine lowestRail_eq_some.mpr ⟨by simp [mem_parents.mp hx.1, hx.2], fun y hy => ?_⟩
  have free := hl y hy
  rw [State.childActive, mem_parents, ← Bool.and_eq_true, Bool.not_eq_true] at free
  simpa using free

theorem activeChild_eq_none (h : ∀ x : Rail, ¬ s.childActive r x) : s.activeChild r (fun _ => true) = none := by
  refine lowestRail_eq_none.mpr fun x => ?_
  have free := h x
  rw [State.childActive, mem_parents, ← Bool.and_eq_true, Bool.not_eq_true] at free
  simpa using free

/-- Where there is an active child, there is a lowest-numbered one. -/
theorem exists_lowest {p : Rail → Prop} {x : Rail} (hx : p x) : ∃ y : Rail, p y ∧ ∀ z : Rail, z < y → ¬ p z := by
  induction x using WellFoundedLT.induction with
  | ind x ih =>
    by_cases h : ∃ z : Rail, z < x ∧ p z
    · obtain ⟨z, hz, hp⟩ := h
      exact ih z hz hp
    · exact ⟨x, hx, fun z hz hp => h ⟨z, hz, hp⟩⟩

theorem judgeLower_state (h : (s.rail r).state.notLowerable = true) : judgeLower s r = .plain .state := by
  unfold judgeLower
  cases hs : (s.rail r).state with
  | unused | faulted | locked => rfl
  | off | lowering | ramping | on => rw [hs] at h; cases h

theorem judgeLower_already (h : (s.rail r).state = .off ∨ (s.rail r).state = .lowering) : judgeLower s r = .plain .already := by
  rcases h with h | h <;> simp only [judgeLower, h]

theorem judgeLower_childActive (h : (s.rail r).state.active = true) {x : Rail} (hx : s.childActive r x)
    (hl : ∀ y : Rail, y < x → ¬ s.childActive r y) : judgeLower s r = { code := .childActive, detail := railByte x } := by
  rcases active_iff.mp h with h | h <;> simp only [judgeLower, h, activeChild_eq_some hx hl]

theorem judgeLower_ready (h : (s.rail r).state.active = true) (hn : ∀ x : Rail, ¬ s.childActive r x) : judgeLower s r = .plain .accepted := by
  rcases active_iff.mp h with h | h <;> simp only [judgeLower, h, activeChild_eq_none hn]

theorem off_or_lowering {st : RailState} (ha : st.active = false) (hn : st.notLowerable = false) : st = .off ∨ st = .lowering := by
  cases st with
  | off => exact .inl rfl
  | lowering => exact .inr rfl
  | unused | faulted | locked => cases hn
  | ramping | on => cases ha

end Lower

/-! ### LOWER issued by a step -/

section IssueLower

variable {s : State} {st : StepRec} {low : List Rail}

theorem issue_lower_single {r : Rail} (hg : st.group = false) (ht : railOperand st.target = some r) :
    issue .lower st s = railCommand judgeLower doLower r s := by
  simp [issue, hg, railCommandOf, ht]

theorem issue_lower_group (hg : st.group = true) : issue .lower st s = groupLower st.tag st.mask s := by
  simp [issue, hg]

/-- A single rail that LOWER refuses with STATE. -/
theorem issueLower_state (hg : st.group = false) {r : Rail} (hr : r ∈ s.stepTargets st) (hn : (s.rail r).state.notLowerable = true)
    (c : Rail → RailChan) : issue .lower st s = (.plain .state, movedDelta s [] c) := by
  cases ht : railOperand st.target with
  | none => rw [stepTargets_nobody hg ht] at hr; cases hr
  | some x =>
    obtain rfl : r = x := by simpa [stepTargets_single hg ht] using hr
    rw [issue_lower_single hg ht, railCommand, judgeLower_state hn, movedDelta_nil]
    rfl

/-- A child that blocks: of the single rail, or of a rail of the group and outside it. -/
theorem issueLower_childActive (hl : low = (s.stepTargets st).filter (fun r => (s.rail r).state.active)) {x : Rail}
    (hx : st.group = true → x ∉ s.stepTargets st) (hc : ∃ r ∈ low, s.childActive r x) (c : Rail → RailChan) :
    ∃ y : Rail, issue .lower st s = ({ code := .childActive, detail := railByte y }, movedDelta s [] c) := by
  cases hg : st.group with
  | true =>
    obtain ⟨y, ⟨hy, hcy⟩, least⟩ := exists_lowest (p := fun z => z ∉ s.stepTargets st ∧ ∃ r ∈ low, s.childActive r z) ⟨hx hg, hc⟩
    have hne : s.stepTargets st ≠ [] := fun hn => by
      obtain ⟨r, hr, -⟩ := hc
      rw [hl, hn] at hr
      cases hr
    have blocked := blockingChild_eq_some hl hy hcy (fun z hz hz' hcz => least z hz ⟨hz', hcz⟩)
    exact ⟨y, by rw [issue_lower_group hg, groupLower_childActive (stepTargets_group hg).symm hne blocked, movedDelta_nil]⟩
  | false =>
    obtain ⟨r, hr, child⟩ := hc
    rw [hl, List.mem_filter] at hr
    cases ht : railOperand st.target with
    | none => rw [stepTargets_nobody hg ht] at hr; cases hr.1
    | some z =>
      obtain rfl : r = z := by simpa [stepTargets_single hg ht] using hr.1
      obtain ⟨y, hy, least⟩ := exists_lowest (p := s.childActive r) child
      refine ⟨y, ?_⟩
      rw [issue_lower_single hg ht, railCommand, judgeLower_childActive hr.2 hy least, movedDelta_nil]
      rfl

/-- Nothing blocks: the active rails are lowered. -/
theorem issueLower_lowers (hne : s.stepTargets st ≠ []) (hl : low = (s.stepTargets st).filter (fun r => (s.rail r).state.active))
    (hfree : ∀ x : Rail, (st.group = true → x ∉ s.stepTargets st) → ¬ ∃ r ∈ low, s.childActive r x)
    (hok : st.group = true ∨ ∀ r ∈ s.stepTargets st, (s.rail r).state.notLowerable = false) :
    ∃ v : Verdict, v.code.isRefusal = false ∧ issue .lower st s = (v, movedDelta s low (fun r => (s.rail r).lowered s.now)) := by
  cases hg : st.group with
  | true =>
    have selected := (stepTargets_group (s := s) hg).symm
    have free := blockingChild_eq_none hl (fun x hx => hfree x (fun _ => hx))
    by_cases hn : low = []
    · refine ⟨.plain .already, rfl, ?_⟩
      rw [issue_lower_group hg, groupLower_already selected hne (hl.symm.trans hn) free, hn, movedDelta_nil]
    · exact ⟨_, rfl, (issue_lower_group hg).trans (groupLower_lowers selected hl hn free)⟩
  | false =>
    cases ht : railOperand st.target with
    | none => exact absurd (stepTargets_nobody hg ht) hne
    | some r =>
      have single : s.stepTargets st = [r] := stepTargets_single hg ht
      rw [single, filter_singleton] at hl
      have lowerable : (s.rail r).state.notLowerable = false := (hok.resolve_left (by simp [hg])) r (by simp [single])
      cases ha : (s.rail r).state.active with
      | true =>
        rw [ha] at hl
        obtain rfl : low = [r] := hl
        have childless (x : Rail) : ¬ s.childActive r x := fun hc => hfree x (by simp [hg]) ⟨r, by simp, hc⟩
        have moved : doLower r (Delta.of s) = movedDelta s [r] (fun r => (s.rail r).lowered s.now) :=
          foldl_moves (l := [r]) (by simp) (fun x _ => doLower_moves s x)
        refine ⟨.plain .accepted, rfl, ?_⟩
        rw [issue_lower_single hg ht, railCommand, judgeLower_ready ha childless, ← moved]
        rfl
      | false =>
        rw [ha] at hl
        obtain rfl : low = [] := hl
        refine ⟨.plain .already, rfl, ?_⟩
        rw [issue_lower_single hg ht, railCommand, judgeLower_already (off_or_lowering ha lowerable), movedDelta_nil]
        rfl

end IssueLower

/-! ### An empty group -/

theorem issue_emptyGroup {s : State} {st : StepRec} {k : StepKind} (hk : k.issues = true) (hg : st.group = true) (hn : s.stepTargets st = [])
    (c : Rail → RailChan) : issue k st s = (.plain .emptyGroup, movedDelta s [] c) := by
  have nobody : s.selected st.tag st.mask = [] := (stepTargets_group hg).symm.trans hn
  rw [movedDelta_nil]
  cases k with
  | raise | clear => exact (if_pos hg).trans (groupEach_of_empty _ _ nobody)
  | lower => exact (issue_lower_group hg).trans (groupLower_emptyGroup nobody)
  | _ => cases hk

/-! ### A step of any kind -/

section Steps

variable {g : HostBus → HostBus} {s : State} {run : Run} {failed : State → Run → Report → State → Prop}

/-- A group target that selects no rail (R101, R104). -/
theorem startedEnd_emptyGroup (hf : Judges g failed) {st : StepRec} (hst : st = s.stepRec run run.step.val)
    (hkind : st.kind ∉ [none, some .pause, some .hold]) (hg : st.group = true) (hn : s.stepTargets st = []) :
    failed (s.mapBus g) run (run.refusedAt .emptyGroup) (s.startedEnd g run) := by
  have issues {k : StepKind} (hk : k.issues = true) (h : st.kind = some k) :
      failed (s.mapBus g) run (run.refusedAt .emptyGroup) (s.startedEnd g run) := by
    have judged := startedEnd_issues (g := g) (s := s) (run := run) (l := []) (c := s.rail) hf hk (hst ▸ h)
      (issue_emptyGroup (s := (s.carrying run).s) hk (hst ▸ hg) (hst ▸ hn) s.rail)
    rw [issued_nil] at judged
    exact judged.2 rfl
  have awaits {k : StepKind} (hk : k = .awaitOn ∨ k = .awaitOff) (h : st.kind = some k) :
      failed (s.mapBus g) run (run.refusedAt .emptyGroup) (s.startedEnd g run) := by
    have started := (startStep_await hk h (s.carrying run)).trans (startAwait_emptyGroup hg hn)
    rw [hst] at started
    exact startedEnd_failed hf (e := { s.engine with run := some { run with phase := .waiting } }) (sel := run.selection) started rfl
  cases h : st.kind with
  | none => simp [h] at hkind
  | some k =>
    cases k with
    | raise | lower | clear => exact issues rfl h
    | awaitOn => exact awaits (.inl rfl) h
    | awaitOff => exact awaits (.inr rfl) h
    | pause | hold => simp [h] at hkind

/-- The clause on a step that issues a command which judges each rail by itself (R101). -/
theorem startedEnd_each (hf : Judges g failed) {k : StepKind} (hk : k.issues = true) {st : StepRec} (hst : st = s.stepRec run run.step.val)
    (h : st.kind = some k) {refusal : Rail → Option Result} {acc ref : List Rail} {c : Rail → RailChan} {v : Verdict}
    (hi : issue k st (s.carrying run).s = (v, movedDelta (s.carrying run).s acc c)) (hpass : ref = [] → v.code.isRefusal = false)
    (hpart : ref ≠ [] → acc ≠ [] → v.code = .partialResult)
    (hrefused : ∀ (x : Rail) (l : List Rail) (k : Result), acc = [] → ref = x :: l → refusal x = some k → v.code = k)
    (hsome : ∀ (x : Rail) (k : Result), refusal x = some k → k.isRefusal = true) {s1 : State} (hs1 : s1 = (s.mapBus g).issued acc c) :
    (ref = [] → s1.stepCompleted run (s.startedEnd g run))
      ∧ (ref ≠ [] → acc ≠ [] → failed s1 run (run.refusedAt .partialResult) (s.startedEnd g run))
      ∧ (∀ (x : Rail) (l : List Rail) (k : Result), acc = [] → ref = x :: l → refusal x = some k →
          failed (s.mapBus g) run (run.refusedAt k) (s.startedEnd g run)) := by
  subst hst hs1
  obtain ⟨passed, refused⟩ := startedEnd_issues hf hk h hi
  refine ⟨fun hnil => passed (hpass hnil), fun hcons hne => ?_, fun x l k hnil hcons hx => ?_⟩
  · rw [← hpart hcons hne]
    exact refused (by rw [hpart hcons hne]; rfl)
  · have code := hrefused x l k hnil hcons hx
    have judged := refused (by rw [code]; exact hsome x k hx)
    rwa [code, hnil, issued_nil] at judged

/-- The start of a step of any kind (R100 to R108). -/
theorem startedEnd_stepStartedOr (hf : Judges g failed) (s : State) (run : Run) : (s.mapBus g).stepStartedOr failed run (s.startedEnd g run) := by
  obtain ⟨st, hst⟩ : ∃ st, st = s.stepRec run run.step.val := ⟨_, rfl⟩
  unfold State.stepStartedOr
  have record : (s.mapBus g).stepRec run run.step.val = st := hst.symm
  have targets : (s.mapBus g).stepTargets st = s.stepTargets st := rfl
  simp only [record, targets]
  refine ⟨fun h => startedEnd_pause (hst ▸ h), fun h => ?_, fun hk hg hn => startedEnd_emptyGroup hf hst hk hg hn,
    fun k h hk hn => startedEnd_await hf hst h hk hn, fun h hn acc ha ref hr hns s1 hs1 => ?_, fun h hn acc ha ref hr s1 hs1 => ?_,
    fun h hn => ⟨fun hg hx => ?_, fun low hl => ⟨fun hx => ?_, fun hfree hok => ?_⟩⟩⟩
  · rw [hst]
    exact startedEnd_hold (hst ▸ h)
  · have moves : ∀ r ∈ acc, Moves1 (s.carrying run).s doRaise (fun r => (s.rail r).raised s.now) r := by
      intro r hmem
      obtain ⟨-, hoff, hnone⟩ : r ∈ s.stepTargets st ∧ (s.rail r).state = .off ∧ s.raiseRefusal r = none := by
        rw [ha, List.mem_filter] at hmem
        have both : ((s.rail r).state == .off && (s.raiseRefusal r).isNone) = true := hmem.2
        exact ⟨hmem.1, by simpa using both⟩
      exact doRaise_moves (s := (s.carrying run).s) (zone_of_raiseRefusal hoff hnone) (hns r hmem)
    obtain ⟨v, hi, hpass, hpart, hrefused⟩ := issueEach (s := (s.carrying run).s) (judgeRaise_answered (s.carrying run).s) hn ha hr moves
    exact startedEnd_each hf (k := .raise) rfl hst h hi hpass hpart hrefused
      (fun x k hx => ((judgeRaise_answered (s.carrying run).s x).refused k hx).2) hs1
  · have moves : ∀ r ∈ acc, Moves1 (s.carrying run).s doClear (fun r => (s.rail r).cleared) r := by
      intro r hmem
      obtain ⟨-, hoff, hnone⟩ : r ∈ s.stepTargets st ∧ (s.rail r).state ≠ .off ∧ s.clearRefusal r = none := by
        rw [ha, List.mem_filter] at hmem
        have both : ((s.rail r).state != .off && (s.clearRefusal r).isNone) = true := hmem.2
        exact ⟨hmem.1, by simpa using both⟩
      exact doClear_moves (s := (s.carrying run).s) (zone_of_clearRefusal hoff hnone)
    obtain ⟨v, hi, hpass, hpart, hrefused⟩ := issueEach (s := (s.carrying run).s) (judgeClear_answered (s.carrying run).s) hn ha hr moves
    exact startedEnd_each hf (k := .clear) rfl hst h hi hpass hpart hrefused
      (fun x k hx => ((judgeClear_answered (s.carrying run).s x).refused k hx).2) hs1
  all_goals subst hst
  · obtain ⟨r, hr, hnl⟩ := hx
    have judged := (startedEnd_issues hf (k := .lower) rfl h (issueLower_state (s := (s.carrying run).s) hg hr hnl s.rail)).2 rfl
    rwa [issued_nil] at judged
  · obtain ⟨x, hx, hc⟩ := hx
    obtain ⟨y, hy⟩ := issueLower_childActive (s := (s.carrying run).s) hl hx hc s.rail
    have judged := (startedEnd_issues hf (k := .lower) rfl h hy).2 rfl
    rwa [issued_nil] at judged
  · obtain ⟨v, hv, hi⟩ := issueLower_lowers (s := (s.carrying run).s) hn hl hfree hok
    exact (startedEnd_issues hf (k := .lower) rfl h hi).1 hv

end Steps

/-! ### A failed run, with its unwind run -/

section Failures

variable {g : HostBus → HostBus}

theorem failed_of_ne_unwind {s : State} {run : Run} {x : Report} (h : run.role ≠ .unwind) :
    s.failed run x = logEngine .stepFailed run.role { plan := run.plan, step := some run.step } (setFlag .fail (s.idleAfter x)) := by
  unfold State.failed failureRecord
  split
  · rename_i hu
    exact absurd hu h
  · rfl

theorem failed_of_unwind {s : State} {run : Run} {x : Report} {p : PlanNo} (h : run.role = .unwind) (hp : run.failedPlan = some p) :
    s.failed run x = logEngine .unwindFailed .unwind { plan := p, step := run.failingStep } (setFlag .fail (s.idleAfter x)) := by
  simp only [State.failed, failureRecord, h, hp, Option.getD_some]

/-- A run that has failed without an unwind run (R112, R114, R115). -/
theorem judges_runFailed (g : HostBus → HostBus) : Judges g State.runFailed := by
  intro s e run p sel reason refusal hp he hw
  have ended (hu : run.role = .normal → (s.plan run.plan).unwind = none) :=
    chainEnded_failed (g := g) (s := s) (reason := reason) (refusal := refusal) (run := { run with phase := p, selection := sel }) hp he hw hu
  refine ⟨fun hr hu => ?_, fun q hr hq => ?_⟩
  · exact (ended hu).trans (failed_of_ne_unwind (run := { run with phase := p, selection := sel }) hr)
  · exact (ended (fun hn => by rw [hr] at hn; cases hn)).trans (failed_of_unwind (run := { run with phase := p, selection := sel }) hr hq)

/-- A run that has failed, with its unwind run started in the same event, or PLAN_MISSING (R115, R116). -/
theorem judges_runFailedAt (g : HostBus → HostBus) : Judges g State.runFailedAt := by
  intro s e run p sel reason refusal hp he
  refine ⟨judges_runFailed g s e run p sel reason refusal hp he, fun u hr hu s1 hs1 => ?_⟩
  obtain ⟨run', hrun'⟩ : ∃ run' : Run, run' = { run with phase := p, selection := sel } := ⟨_, rfl⟩
  have normal : run'.role = .normal := by rw [hrun']; exact hr
  have names : (s.plan run'.plan).unwind = some u := by rw [hrun']; exact hu
  have waiting : run'.phase ≠ .quiet := by rw [hrun']; exact hp
  have same : run'.failure reason refusal = run.failure reason refusal := by rw [hrun']; rfl
  have record : s1 = (s.failed run' (run.failure reason refusal)).mapBus g := by
    rw [hs1, ← failed_mapBus, failed_of_ne_unwind (by rw [normal]; decide), normal, hrun']
  rw [← hrun'] at he
  refine ⟨fun (hready : (s.plan u).state = .ready) hlen => ?_, fun (hunready : (s.plan u).state ≠ .ready) (hw : s.noneWaiting = true) => ?_⟩
  · have length : 0 < ((s.failed run' (run.failure reason refusal)).plan u).length := by
      rw [failed_plan]
      exact hlen
    have start := chainEnded_runSteps (g := g) (s := s.failed run' (run.failure reason refusal)) (run := run'.unwinding u) (i := 0) length
    rw [chainEnded_unwinds waiting he normal names (by simpa [State.ready] using hready), same, record, ← failed_plan run' (run.failure reason refusal) u,
      show run.unwinding u = run'.unwinding u by rw [hrun']; rfl]
    exact start ▸ startedEnd_stepStartedOr (judges_runFailed g) _ (run'.unwinding u)
  · rw [chainEnded_planMissing waiting he hw normal names (by simpa [State.ready] using hunready), same, record, failed_mapBus, hrun']

end Failures

/-- The start of a step of any kind, its failure judged by the failure policy. -/
theorem startedEnd_stepStarted (g : HostBus → HostBus) (s : State) (run : Run) : (s.mapBus g).stepStarted run (s.startedEnd g run) :=
  startedEnd_stepStartedOr (judges_runFailedAt g) s run

end Sys2Proof.Machine
end

section
/-! PROOFS. The events that start, continue and end runs: RUN into an IDLE engine (R98, R128), RELEASE (R109), and the engine's timers (R99, R107, R110). -/

namespace Sys2Proof.Machine

section Events

variable {g : HostBus → HostBus} {s : State} {run : Run} {w : Work}

theorem setRun_self (h : s.engine.run = some run) : s.setRun (some run) = s := by
  unfold State.setRun
  rw [← h]

theorem answer_passed {v : Verdict} (h : v.code.isRefusal = false) (t : State) :
    answer v t = t.mapBus (fun b => { b with res := v.code.code, rdet := v.detail }) := by
  simp only [answer, h]
  rfl

/-- A host command that its owner carries out (R177). -/
theorem exec_carriedOut {i : Instr} {code : Byte} {owner : State → Verdict × State} {v : Verdict} {t : State}
    (he : exec i s = .next (hostCommand code owner s)) (hr : s.pins.inReset = false) (ho : owner (setCmd code s) = (v, t)) (hv : v.code.isRefusal = false) :
    exec i s = .next (t.mapBus (fun b => { b with res := v.code.code, rdet := v.detail })) := by
  rw [he, hostCommand_eq_answer hr, ho, answer_passed hv]

/-! ### RUN -/

/-- The run of an entry of the queue, at its step 0 (R98). -/
def QueueEntry.started (e : QueueEntry) : Run where
  phase := .waiting
  plan := e.plan
  role := .normal
  origin := e.origin
  tag := e.tag
  step := 0
  selection := 0
  failedPlan := none
  failingStep := none

/-- An entry that joins the queue of an IDLE engine with nothing waiting starts its run (R118, R128). -/
theorem joinQueue_starts {e : QueueEntry} (hi : s.engine.run = none) (hw : s.noneWaiting = true) (hquiet : (s.plan e.plan).quiet = 0)
    (hlen : 0 < (s.plan e.plan).length) :
    (joinQueue e s).mapBus g = (s.setEngineTimers none none none).startedEnd g e.started := by
  obtain ⟨hslot, hqueue⟩ : s.requests.slot = none ∧ s.requests.queue = [] := by simpa [State.noneWaiting] using hw
  have emptied : (s.setQueue (s.requests.queue ++ [e])).setQueue [] = s := by
    simp only [State.setQueue, ← hqueue]
  have taken : takeNext (s.setQueue (s.requests.queue ++ [e]))
      = some ({ plan := e.plan, role := .normal, origin := e.origin, tag := e.tag, failedPlan := none, failingStep := none }, s) := by
    have front : (s.setQueue (s.requests.queue ++ [e])).requests.queue = [e] := by simp [State.setQueue, hqueue]
    have free : (s.setQueue (s.requests.queue ++ [e])).requests.slot = none := hslot
    simp only [takeNext, free, front, emptied]
  have started : startRun { plan := e.plan, role := .normal, origin := e.origin, tag := e.tag, failedPlan := none, failingStep := none } { s := s, reqs := [] }
      = runSteps (s.plan e.plan).length 0 { s := (s.setEngineTimers none none none).setRun (some e.started), reqs := [] } :=
    if_neg (fun h => h.2 hquiet)
  have joined : joinQueue e s = finishWork (chooseNext (s.setQueue (s.requests.queue ++ [e])).waitingRuns
      { s := s.setQueue (s.requests.queue ++ [e]), reqs := [] }) := if_pos (by simp [State.idle, hi])
  rw [joined, chooseNext_eq_carryOn (w := { s := s.setQueue (s.requests.queue ++ [e]), reqs := [] }) taken, started]
  exact chainEnded_runSteps (g := g) (s := s.setEngineTimers none none none) (run := e.started) (i := 0) hlen

/-- Settles O34: the entry's run is started at its step 0, or rests in QUIET. -/
theorem runStartsIdleEngine : Obligations.RunStartsIdleEngine := by
  intro s p hr h0 hk hp hi hw
  obtain ⟨e, he⟩ : ∃ e : QueueEntry, e = { plan := p, origin := .host, tag := some s.bus.arg1 } := ⟨_, rfl⟩
  obtain ⟨-, hqueue⟩ : s.requests.slot = none ∧ s.requests.queue = [] := by simpa [State.noneWaiting] using hw
  have accepted : hostRun (setCmd 0x18 s) = ({ code := .accepted, detail := 0 }, joinQueue e (setCmd 0x18 s)) := by
    have free : (setCmd 0x18 s).queuePosition p = none := by
      show s.requests.queue.findIdx? _ = none
      rw [hqueue]
      rfl
    have room : (setCmd 0x18 s).requests.queue.length < 4 := by
      show s.requests.queue.length < 4
      rw [hqueue]
      decide
    have idle : (setCmd 0x18 s).idle = true := by
      show s.engine.run.isNone = true
      rw [hi]
      rfl
    rw [hostRun_accepted (s := setCmd 0x18 s) h0 hk hp free room, idle, he]
    rfl
  have carried := exec_carriedOut (exec_run s) hr accepted rfl
  refine ⟨fun hquiet => ?_, fun hquiet hlen => ⟨_, carried, ?_⟩⟩
  · rw [carried, joinQueue_quiet (s := setCmd 0x18 s) hi hw (by rw [he]; exact hquiet), he]
    rfl
  · rw [joinQueue_starts (s := setCmd 0x18 s) hi hw (by rw [he]; exact hquiet) (by rw [he]; exact hlen)]
    have started := startedEnd_stepStarted (fun b => { b with res := Result.accepted.code, rdet := 0 }) ((setCmd 0x18 s).setEngineTimers none none none) e.started
    rw [he] at started
    rw [he]
    exact started

/-! ### RELEASE -/

theorem exec_release (s : State) : exec .release s = .next (hostCommand 0x1A hostRelease s) := by
  rfl

/-- The steps after the one at which a run stands (R102, R109). -/
theorem nextSteps_started {i : StepNo} (h : s.engine.run = some run) (hi : i.val = run.step.val + 1) (hlt : i.val < (s.plan run.plan).length) :
    (finishWork (nextSteps run { s := s, reqs := [] })).mapBus g = s.startedEnd g { run with step := i } := by
  rw [← chainEnded_runSteps hlt, setRun_self h, hi]
  rfl

/-- After the last step the run ends DONE (R102). -/
theorem nextSteps_done (h : s.engine.run = some run) (hl : (s.plan run.plan).length ≤ run.step.val + 1) (hw : s.noneWaiting = true) :
    (finishWork (nextSteps run { s := s, reqs := [] })).mapBus g = setFlag .done ((s.mapBus g).idleAfter (run.ended .done)) := by
  have none_left : (s.plan run.plan).length - (run.step.val + 1) = 0 := Nat.sub_eq_zero_of_le hl
  rw [← chainEnded_done (e := s.engine) h hw, nextSteps, none_left]
  rfl

/-- Settles O36: outside HELD nothing is touched; in HELD the next step is started, or the run ends. -/
theorem releaseGoesOn : Obligations.ReleaseGoesOn := by
  intro s hr
  refine ⟨fun h => ?_, fun run hrun hheld => ?_⟩
  · have kept : hostRelease (setCmd 0x1A s) = (.plain .notHeld, setCmd 0x1A s) := by
      have engine : (setCmd 0x1A s).engine.run = s.engine.run := rfl
      unfold hostRelease
      rw [engine]
      cases hrun : s.engine.run with
      | none => rfl
      | some run => exact if_neg (h run hrun)
    exact (exec_refused (exec_release s) hr kept rfl :)
  · have released : hostRelease (setCmd 0x1A s) = ({ code := .accepted, detail := byte run.step.val },
        finishWork (nextSteps run { s := (setCmd 0x1A s).setEngineTimers s.engine.quietT s.engine.stepT none, reqs := [] })) := by
      have running : (setCmd 0x1A s).engine.run = some run := hrun
      simp only [hostRelease, running, hheld, if_true]
      rfl
    have carried := exec_carriedOut (exec_release s) hr released rfl
    refine ⟨fun i hi hlt => ⟨_, carried, ?_⟩, fun hl hw => carried.trans (congrArg Host.Outcome.next ?_)⟩
    · rw [nextSteps_started (s := (setCmd 0x1A s).setEngineTimers s.engine.quietT s.engine.stepT none) hrun hi hlt]
      exact startedEnd_stepStarted (fun b => { b with res := Result.accepted.code, rdet := byte run.step.val })
        ((setCmd 0x1A s).setEngineTimers s.engine.quietT s.engine.stepT none) { run with step := i }
    · rw [nextSteps_done (s := (setCmd 0x1A s).setEngineTimers s.engine.quietT s.engine.stepT none) hrun hl hw]
      rfl

/-! ### The engine's timers -/

/-- A run that completes the step at which it stands (R102). -/
theorem completeStep_ended (hp : run.phase = .waiting) :
    finishWork (completeStep run { s := s.setRun (some run), reqs := [] }) = s.completedEnd id run := by
  have carrying : s.carrying run = { s := s.setRun (some run), reqs := [] } := by
    unfold State.carrying
    rw [← hp]
  rw [State.completedEnd, carrying]
  cases hold : (s.stepRec run run.step.val).holdAfter with
  | true =>
    have held : completeStep run { s := s.setRun (some run), reqs := [] }
        = Work.on { s := s.setRun (some run), reqs := [] } (enterHeld (s.stepRec run run.step.val).limit.toNat) := if_pos hold
    have chain (next : Work → Work × ChainEnd) : afterStep (s.stepRec run run.step.val) ({ s := s.setRun (some run), reqs := [] }, .completed) next
        = (Work.on { s := s.setRun (some run), reqs := [] } (enterHeld (s.stepRec run run.step.val).limit.toNat), .rest) := if_pos hold
    rw [held, chain]
    rfl
  | false =>
    have goes : completeStep run { s := s.setRun (some run), reqs := [] } = nextSteps run { s := s.setRun (some run), reqs := [] } :=
      if_neg (by exact Bool.eq_false_iff.mp hold)
    have chain (next : Work → Work × ChainEnd) : afterStep (s.stepRec run run.step.val) ({ s := s.setRun (some run), reqs := [] }, .completed) next
        = next { s := s.setRun (some run), reqs := [] } := if_neg (by exact Bool.eq_false_iff.mp hold)
    rw [goes, chain]
    rfl

/-- A completed step without a hold goes on to the next (R102). -/
theorem completedEnd_next {i : StepNo} (hfree : (s.stepRec run run.step.val).holdAfter = false) (hi : i.val = run.step.val + 1)
    (hlt : i.val < (s.plan run.plan).length) : s.completedEnd g run = s.startedEnd g { run with step := i } := by
  have next : s.completedEnd g run = chainEnded g (runSteps ((s.plan run.plan).length - (run.step.val + 1)) (run.step.val + 1) (s.carrying run)) :=
    congrArg (chainEnded g) (if_neg (by exact Bool.eq_false_iff.mp hfree))
  rw [next, ← hi]
  exact chainEnded_runSteps (s := s) (run := { run with phase := .waiting }) hlt

theorem endWait_eq (h : s.engine.run = some run) :
    endWait s = (s.setEngineTimers s.engine.quietT none s.engine.holdT).setRun (some { run with selection := 0 }) := by
  have running : (s.setEngineTimers s.engine.quietT none s.engine.holdT).engine.run = some run := h
  simp only [endWait, mapRun, running]
  rfl

/-- Settles O59: a quiet expiry starts step 0, a PAUSE completes, an AWAIT or a hold that runs out fails its run. -/
theorem engineTimerExpiries : Obligations.EngineTimerExpiries := by
  intro s run hrun
  refine ⟨fun hp ht hlen => ?_, fun hp ht hkind s1 hs1 => ?_, fun i reason h => ?_⟩
  · have expired : quietExpiry s = chainEnded id (runSteps (s.plan run.plan).length 0
        { s := s.setEngineTimers none s.engine.stepT s.engine.holdT, reqs := [] }) := by
      simp only [quietExpiry, hrun]
      exact if_pos ⟨hp, ht⟩
    have started := chainEnded_runSteps (g := id) (s := s.setEngineTimers none s.engine.stepT s.engine.holdT) (run := run) (i := 0) hlen
    rw [setRun_self (s := s.setEngineTimers none s.engine.stepT s.engine.holdT) hrun] at started
    refine ⟨_, congrArg Host.Outcome.next (expired.trans started), ?_⟩
    exact startedEnd_stepStarted id (s.setEngineTimers none s.engine.stepT s.engine.holdT) { run with step := 0 }
  · have expired : stepTimerExpiry s = s1.completedEnd id { run with selection := 0 } := by
      have completed : stepTimerExpiry s = finishWork (completeStep run { s := endWait s, reqs := [] }) := by
        simp only [stepTimerExpiry, hrun]
        rw [if_pos ⟨hp, ht⟩]
        simp only [hkind]
      rw [completed, endWait_eq hrun, ← hs1]
      exact completeStep_ended (s := s1) (run := { run with selection := 0 }) hp
    refine ⟨_, congrArg Host.Outcome.next expired, completedEnd_stepCompleted (g := id) s1 _, fun hfree i hi hlt => ?_⟩
    subst hs1
    rw [completedEnd_next (s := s.setEngineTimers s.engine.quietT none s.engine.holdT) (run := { run with selection := 0 }) hfree hi hlt]
    exact startedEnd_stepStarted id (s.setEngineTimers s.engine.quietT none s.engine.holdT) { run with step := i, selection := 0 }
  · rcases h with ⟨rfl, rfl, hp, ht, hkind⟩ | ⟨rfl, rfl, hp, ht⟩
    · have expired : stepTimerExpiry s = chainEnded id ({ s := endWait s, reqs := [] }, .failed .awaitTimeout none) := by
        simp only [stepTimerExpiry, hrun]
        rw [if_pos ⟨hp, ht⟩]
        rcases hkind with hkind | hkind <;> simp only [hkind] <;> rfl
      refine ⟨_, congrArg Host.Outcome.next expired, ?_⟩
      rw [endWait_eq hrun]
      exact judges_runFailedAt id s _ run .waiting 0 .awaitTimeout none (by decide) (by rw [← hp])
    · have expired : holdExpiry s = chainEnded id ({ s := s, reqs := [] }, .failed .holdExpired none) := by
        simp only [holdExpiry, hrun]
        exact if_pos ⟨hp, ht⟩
      refine ⟨_, congrArg Host.Outcome.next expired, ?_⟩
      exact judges_runFailedAt id s s.engine run .held run.selection .holdExpired none (by decide) (by rw [← hp]; exact hrun)

end Events

end Sys2Proof.Machine
end

section
/-! PROOFS. A rail that moves while a step waits on it (R97, R104 to R106): RAISE under AWAIT_OFF, LOWER under AWAIT_ON, and the arrival in ON that
completes an AWAIT_ON. -/

namespace Sys2Proof.Machine

section Awaited

variable {s : State} {r : Rail} {c : RailChan} {run : Run} {k : StepKind}

/-- A WAITING run keeps its timers when a rail changes. -/
theorem changedRail_waiting (h : s.engine.run = some run) (hp : run.phase = .waiting) : s.changedRail r c = (s.setRail r c).joined (RailSet.add 0 r) := by
  have some_changed : RailSet.add 0 r ≠ 0 := fun h0 => by
    have own : RailSet.has (RailSet.add 0 r) r = true := by simp [has_add]
    rw [h0] at own
    exact absurd own (by simp)
  have running : ((s.setRail r c).joined (RailSet.add 0 r)).engine.run = some run := by
    rw [joined_eq]
    exact h
  refine (if_neg some_changed).trans ?_
  simp only [State.quietAfresh, running, hp]
  rfl

theorem changedRail_run (h : s.engine.run = some run) (hp : run.phase = .waiting) : (s.changedRail r c).engine = s.engine := by
  rw [changedRail_waiting h hp, joined_eq]
  rfl

/-- The judgement of the selection of a run in progress (R105, R106). -/
theorem judgeAwait_eq (hk : k = .awaitOn ∨ k = .awaitOff) (s : State) (sel : RailSet) :
    judgeAwait k s sel =
      if ∀ x, RailSet.has sel x = true → k.met (s.rail x).state = true then .done
      else if ∃ x, RailSet.has sel x = true ∧ k.lost (s.rail x).state = true then .failed
      else .waiting := by
  have judged := judgeAwait_ofList hk s (RailSet.rails sel)
  rw [ofList_rails] at judged
  simpa only [mem_rails] using judged

/-- A change of a rail that a step waits on, handed on (R97, R104). -/
theorem finish_awaited (h : s.engine.run = some run) (hp : run.phase = .waiting) (hkind : (s.stepRec run run.step.val).kind = some k)
    (hk : k.awaits = true) (hsel : RailSet.has run.selection r = true) :
    finish { s := s.setRail r c, changed := RailSet.add 0 r, reqs := [], shed := false } =
      finishWork (match judgeAwait k (s.changedRail r c) run.selection with
        | .waiting => { s := s.changedRail r c, reqs := [] }
        | .done => completeStep run { s := endWait (s.changedRail r c), reqs := [] }
        | .failed => carryOn { s := endWait (s.changedRail r c), reqs := [] } (.failed .awaitImpossible none)) := by
  have one : RailSet.rails (RailSet.add 0 r) = [r] := by
    refine (List.filter_congr fun x _ => ?_).trans (allRails_filter_eq r)
    rw [has_add, show RailSet.has 0 x = false from has_zero x, Bool.false_or, Bool.eq_iff_iff, beq_iff_eq, beq_iff_eq, eq_comm]
  have told : addChanged r (s.setRail r c) = s.changedRail r c := by
    rw [changedRail_waiting h hp]
    exact foldl_addChanged [r] (s.setRail r c)
  have handed : handOn { s := s.setRail r c, changed := RailSet.add 0 r, reqs := [], shed := false }
      = engineSees r { s := s.changedRail r c, reqs := [] } := by
    rw [handOn, one, ← told]
    rfl
  have running : (s.changedRail r c).engine.run = some run := by rw [changedRail_run h hp, h]
  have kind : ((s.changedRail r c).stepRec run run.step.val).kind = some k := by
    have store : (s.changedRail r c).store = s.store := by
      rw [changedRail_waiting h hp, joined_eq]
      rfl
    rw [← hkind]
    unfold State.stepRec State.plan
    rw [store]
  show finishWork (handOn _) = _
  rw [handed, engineSees]
  simp only [running, hp, kind, hk, hsel, and_self, if_true]
  rfl

/-- A change that makes the selection of the step fail (R105, R106). -/
theorem finish_awaited_lost {g : HostBus → HostBus} (h : s.engine.run = some run) (hp : run.phase = .waiting)
    (hkind : (s.stepRec run run.step.val).kind = some k) (hk : k = .awaitOn ∨ k = .awaitOff) (hsel : RailSet.has run.selection r = true)
    (hl : k.lost c.state = true) :
    ((s.changedRail r c).mapBus g).runFailedAt run (run.failedFor .awaitImpossible)
      ((finish { s := s.setRail r c, changed := RailSet.add 0 r, reqs := [], shed := false }).mapBus g) := by
  have own : (s.changedRail r c).rail r = c := by
    rw [changedRail_waiting h hp, joined_eq]
    show (s.setRail r c).rail r = c
    rw [setRail_rail, if_pos rfl]
  have lost : k.lost ((s.changedRail r c).rail r).state = true := by rw [own]; exact hl
  have judged : judgeAwait k (s.changedRail r c) run.selection = .failed := by
    rw [judgeAwait_eq hk, if_neg (fun met => absurd (met r hsel) (by simp [not_met_of_lost hk lost])), if_pos ⟨r, hsel, lost⟩]
  have running : (s.changedRail r c).engine.run = some run := by rw [changedRail_run h hp, h]
  rw [finish_awaited h hp hkind (by rcases hk with rfl | rfl <;> rfl) hsel, judged, endWait_eq running]
  exact judges_runFailedAt g (s.changedRail r c) _ run .waiting 0 .awaitImpossible none (by decide) (by rw [← hp])

end Awaited

/-! ### RAISE and LOWER -/

/-- An accepted command on one rail that moves and does nothing else, before the change is handed on. -/
theorem ownRails_finish {judge : State → Rail → Verdict} {act : Rail → Delta → Delta} {b : Byte} {s : State} {r : Rail} {c : Rail → RailChan}
    (hb : b = railByte r) (hj : judge s r = .plain .accepted) (hm : Moves1 s act c r) :
    ownRails (railCommandOf judge act b) s
      = (.plain .accepted, finish { s := s.setRail r (c r), changed := RailSet.add 0 r, reqs := [], shed := false }) := by
  have moved : act r (Delta.of s) = movedDelta s [r] c := foldl_moves (l := [r]) (by simp) (by simpa using hm)
  rw [ownRails_accepted hb hj, moved, movedDelta, mapRails_singleton]
  rfl

/-- Settles O20: the rail enters RAMPING; an AWAIT_OFF that waits for it fails. -/
theorem raiseEntersRamping : Obligations.RaiseEntersRamping := by
  intro s r hr h0 hs hparents hz hk hn s1 hs1
  have judged : judgeRaise (setCmd 0x01 s) r = .plain .accepted := judgeRaise_ready (s := setCmd 0x01 s) hs hparents hz hk
  have moves := doRaise_moves (s := setCmd 0x01 s) hz hn
  refine ⟨fun hu => ?_, fun run hrun hp hkind hsel => ?_⟩
  · rw [hs1, changedRail_window]
    exact (exec_answered (exec_raise s) hr ((ownRails_moves h0 judged moves hu).trans (congrArg _ (changedRail_setCmd _ _ _ _))) :)
  · have failed := finish_awaited_lost (g := fun b => { b with res := Result.accepted.code, rdet := 0 }) (s := setCmd 0x01 s) (r := r)
      (c := (s.rail r).raised s.now) hrun hp hkind (.inr rfl) hsel rfl
    refine ⟨_, exec_carriedOut (exec_raise s) hr (ownRails_finish h0 judged moves) rfl, ?_⟩
    rw [hs1, changedRail_window]
    rw [changedRail_setCmd] at failed
    exact failed

/-- Settles O22: each answer of the judgement; the rail is lowered, and an AWAIT_ON that waits for it fails. -/
theorem lowerAnswersAndLowers : Obligations.LowerAnswersAndLowers := by
  intro s hr
  have answered {r : Rail} {v : Verdict} (h0 : s.bus.arg0 = railByte r) (hj : judgeLower (setCmd 0x02 s) r = v) (hv : v.code.isRefusal = true) :
      exec .lower s = .next (s.refusedWith 0x02 v.code.code v.detail) :=
    exec_refused (exec_lower s) hr (ownRails_kept h0 hj (fun ha => by simp [ha, Result.isRefusal] at hv)) hv
  refine ⟨fun h => (exec_refused (exec_lower s) hr (ownRails_badArgument (s := setCmd 0x02 s) h) rfl :), fun r h0 => ⟨fun hs => ?_, fun hs => ?_,
    fun hs => ⟨fun x hx hl => ?_, fun hn s1 hs1 => ?_⟩⟩⟩
  · refine answered (v := .plain .state) h0 (judgeLower_state (s := setCmd 0x02 s) ?_) rfl
    rw [setCmd_rail]
    rcases hs with hs | hs | hs <;> rw [hs] <;> rfl
  · exact (exec_done (exec_lower s) hr (ownRails_kept h0 (judgeLower_already (s := setCmd 0x02 s) hs) (by decide)) rfl :)
  · exact answered h0 (judgeLower_childActive (s := setCmd 0x02 s) (active_iff.mpr hs) hx hl) rfl
  · have judged : judgeLower (setCmd 0x02 s) r = .plain .accepted := judgeLower_ready (s := setCmd 0x02 s) (active_iff.mpr hs) hn
    have moves := doLower_moves (setCmd 0x02 s) r
    refine ⟨fun hu => ?_, fun run hrun hp hkind hsel => ?_⟩
    · rw [hs1, changedRail_window]
      exact (exec_answered (exec_lower s) hr ((ownRails_moves h0 judged moves hu).trans (congrArg _ (changedRail_setCmd _ _ _ _))) :)
    · have down : StepKind.lost .awaitOn ((s.rail r).lowered s.now).state = true := by
        unfold RailChan.lowered
        split <;> rfl
      have failed := finish_awaited_lost (g := fun b => { b with res := Result.accepted.code, rdet := 0 }) (s := setCmd 0x02 s) (r := r)
        (c := (s.rail r).lowered s.now) hrun hp hkind (.inl rfl) hsel down
      refine ⟨_, exec_carriedOut (exec_lower s) hr (ownRails_finish h0 judged moves) rfl, ?_⟩
      rw [hs1, changedRail_window]
      rw [changedRail_setCmd] at failed
      exact failed

/-! ### The arrival in ON -/

/-- Settles O55: the rail goes ON, and an AWAIT_ON on it alone completes. -/
theorem settleExpiryEntersOn : Obligations.SettleExpiryEntersOn := by
  intro s r c hs ht hc
  have entered : railSettleExpiry (.of (s.rail r)) = (RailStep.of (s.rail r)).move c := by
    rw [hc]
    exact if_pos ⟨hs, ht⟩
  refine ⟨fun hu => congrArg Host.Outcome.next (finish_moved entered hu), fun run hrun hp hkind hsel => ?_⟩
  have running : (s.changedRail r c).engine.run = some run := by rw [changedRail_run hrun hp, hrun]
  have handed : onRail r railSettleExpiry (Delta.of s) = { s := s.setRail r c, changed := RailSet.add 0 r, reqs := [], shed := false } := by
    have committed : onRail r railSettleExpiry (Delta.of s) = commit r ((RailStep.of (s.rail r)).move c) (Delta.of s) :=
      congrArg (fun e => commit r e (Delta.of s)) entered
    rw [committed, commit_of_quiet ⟨rfl, rfl⟩]
    rfl
  have selected (x : Rail) : RailSet.has run.selection x = true ↔ r = x := by
    rw [hsel, has_add, show RailSet.has 0 x = false from has_zero x, Bool.false_or, beq_iff_eq]
  have judged : judgeAwait .awaitOn (s.changedRail r c) run.selection = .done := by
    rw [judgeAwait_eq (.inl rfl), if_pos]
    intro x hx
    rw [← (selected x).mp hx, changedRail_waiting hrun hp, joined_eq]
    show StepKind.met .awaitOn ((s.setRail r c).rail r).state = true
    rw [setRail_rail, if_pos rfl, hc]
    rfl
  have expired : finish (onRail r railSettleExpiry (Delta.of s))
      = ((s.changedRail r c).setEngineTimers s.engine.quietT none s.engine.holdT).completedEnd id { run with selection := 0 } := by
    rw [handed, finish_awaited hrun hp hkind rfl ((selected r).mpr rfl), judged, endWait_eq running, changedRail_run hrun hp]
    exact completeStep_ended (s := (s.changedRail r c).setEngineTimers s.engine.quietT none s.engine.holdT) (run := { run with selection := 0 }) hp
  exact ⟨_, congrArg Host.Outcome.next expired, completedEnd_stepCompleted (g := id)
    ((s.changedRail r c).setEngineTimers s.engine.quietT none s.engine.holdT) { run with selection := 0 }⟩

end Sys2Proof.Machine
end

section
/-! PROOFS. A fault-plan request (R135, R136): the cut that raises it, and its judgement test by test. -/

namespace Sys2Proof.Machine

/-- What the judgement of a request leaves alone: rails, store, interface, pins, run queue and change set. -/
structure State.Aside (s t : State) : Prop where
  rails : t.rails = s.rails
  store : t.store = s.store
  bus : t.bus = s.bus
  pins : t.pins = s.pins
  queue : t.requests.queue = s.requests.queue
  changed : t.notify.changed = s.notify.changed

theorem State.Aside.trans {s t u : State} (h : s.Aside t) (h' : t.Aside u) : s.Aside u :=
  ⟨h'.rails.trans h.rails, h'.store.trans h.store, h'.bus.trans h.bus, h'.pins.trans h.pins, h'.queue.trans h.queue, h'.changed.trans h.changed⟩

theorem State.Aside.logEngine (kind : EngineKind) (role : Role) (c : PlanContext) (s : State) : s.Aside (logEngine kind role c s) := by
  have h := State.SameElsewhere.logFault (.engine kind role) (some c) s
  refine ⟨logFault_rails _ _ _, h.store, h.bus, h.pins, congrArg RequestUnit.queue h.requests, ?_⟩
  rw [Machine.logEngine, logFault_notify]
  rfl

section Requests

variable {s : State} {run : Run} {q : PlanRequest}

/-- A run started at a PAUSE rests in it (R100, R107). -/
theorem runSteps_pause (h : s.pauseAt run.plan 0 = true) :
    runSteps (s.plan run.plan).length 0 { s := s.setRun (some run), reqs := [] } = ({ s := s.pausing { run with step := 0 }, reqs := [] }, .rest) := by
  obtain ⟨hlt, hkind⟩ : 0 < (s.plan run.plan).length ∧ (s.stepRec run 0).kind = some .pause := by
    simpa [State.pauseAt, State.stepRec] using h
  obtain ⟨k, hk⟩ : ∃ k, (s.plan run.plan).length = k + 1 := ⟨(s.plan run.plan).length - 1, by omega⟩
  have started : startStep (s.stepRec run 0) { s := beginStep 0 (s.setRun (some run)), reqs := [] }
      = ({ s := s.pausing { run with step := 0 }, reqs := [] }, .rest) := by
    simp only [startStep, hkind]
    rfl
  have begun : (beginStep 0 (s.setRun (some run))).engine.run = some { run with phase := .waiting, step := 0 } := rfl
  have record : (beginStep 0 (s.setRun (some run))).stepRec { run with phase := .waiting, step := 0 } 0 = s.stepRec run 0 := rfl
  rw [hk]
  simp only [runSteps, Work.on, begun, record, started]
  rfl

/-- An urgent run of a plan that begins with a PAUSE (R98, R119). -/
theorem startUrgent_pause (h : s.pauseAt q.plan 0 = true) :
    startUrgent q { s := s, reqs := [] } = { s := (s.setEngineTimers none none none).pausing (urgentRun q.plan), reqs := [] } := by
  have started : startRun (urgentSpec q) { s := s, reqs := [] }
      = ({ s := (s.setEngineTimers none none none).pausing (urgentRun q.plan), reqs := [] }, .rest) := by
    rw [startRun, if_neg (fun h => by cases h.1)]
    exact runSteps_pause (s := s.setEngineTimers none none none) (run := urgentRun q.plan) h
  simp only [startUrgent, started]
  rfl

/-- A run preempted by an urgent request (R112, R136 test 5), the engine put aside. -/
def State.preempted (s : State) (run : Run) : State :=
  logEngine .preempted run.role { plan := run.plan, step := run.stepReached } (setFlag .fail (s.idleAfter (run.ended .preempted)))

theorem preempted_aside (s : State) (run : Run) : s.Aside (s.preempted run) := by
  have reported : s.Aside (setFlag .fail (s.idleAfter (run.ended .preempted))) := ⟨rfl, rfl, rfl, rfl, rfl, rfl⟩
  exact reported.trans (.logEngine _ _ _ _)

theorem endRun_preempted (h : s.engine.run = some run) :
    endRun run .preempted .none none s = (s.preempted run).withEngine
      { run := some { run with selection := 0 }, quietT := none, stepT := none, holdT := none, report := some (run.ended .preempted) } := by
  have ended : outcomeFlag .preempted ((mapRun (fun x => { x with selection := 0 }) (s.setEngineTimers none none none)).setReport (run.ended .preempted))
      = (setFlag .fail (s.idleAfter (run.ended .preempted))).withEngine
        { run := some { run with selection := 0 }, quietT := none, stepT := none, holdT := none, report := some (run.ended .preempted) } := by
    have running : (s.setEngineTimers none none none).engine.run = some run := h
    simp only [mapRun, running]
    rfl
  rw [endRun, reportOf_eq_ended, ended]
  exact logFault_withEngine _ _ _ _

/-! ### The tests of R136 -/

theorem judgeRequest_planMissing (hk : s.pins.kill = false) (hp : (s.plan q.plan).state ≠ .ready) :
    judgeRequest q { s := s, reqs := [] } = { s := logEngine .planMissing .urgent { plan := q.plan, step := none } s, reqs := [] } := by
  have unready : s.ready q.plan = false := by simpa [State.ready] using hp
  simp only [judgeRequest, hk, unready]
  rfl

section Ready

variable (hk : s.pins.kill = false) (hp : (s.plan q.plan).state = .ready)
include hk hp

theorem judgeRequest_idle (hi : s.engine.run = none) (h : s.pauseAt q.plan 0 = true) :
    judgeRequest q { s := s, reqs := [] } = { s := (s.setEngineTimers none none none).pausing (urgentRun q.plan), reqs := [] } := by
  have ready : s.ready q.plan = true := by simpa [State.ready] using hp
  rw [← startUrgent_pause h]
  simp only [judgeRequest, hk, ready, hi]
  rfl

/-- A NORMAL or UNWIND run is preempted (R136 test 5). -/
theorem judgeRequest_preempts (hr : s.engine.run = some run) (hu : run.role ≠ .urgent) (h : s.pauseAt q.plan 0 = true) :
    judgeRequest q { s := s, reqs := [] } = { s := (s.preempted run).pausing (urgentRun q.plan), reqs := [] } := by
  have ready : s.ready q.plan = true := by simpa [State.ready] using hp
  have preempts : judgeRequest q { s := s, reqs := [] } = startUrgent q { s := endRun run .preempted .none none s, reqs := [] } := by
    simp only [judgeRequest, hk, ready, hr]
    exact if_neg hu
  have pause : (endRun run .preempted .none none s).pauseAt q.plan 0 = true := by
    rw [endRun_preempted hr, ← h]
    exact congrArg (fun x : PlanStore => ({ s with store := x } : State).pauseAt q.plan 0) (preempted_aside s run).store
  have engine : (s.preempted run).engine = (s.idleAfter (run.ended .preempted)).engine := logFault_engine _ _ _
  rw [preempts, startUrgent_pause pause, endRun_preempted hr]
  unfold State.pausing
  rw [engine]
  rfl

/-- An URGENT run keeps running; the request waits in the slot, or is lost (R136 tests 4, 6 and 7). -/
theorem judgeRequest_stored (hr : s.engine.run = some run) (hu : run.role = .urgent) (h : s.requests.slot = none) :
    judgeRequest q { s := s, reqs := [] } = { s := s.setSlot (some q), reqs := [] } := by
  have ready : s.ready q.plan = true := by simpa [State.ready] using hp
  simp only [judgeRequest, hk, ready, hr, hu, h]
  rfl

theorem judgeRequest_held (hr : s.engine.run = some run) (hu : run.role = .urgent) {held : PlanRequest} (h : s.requests.slot = some held) :
    judgeRequest q { s := s, reqs := [] } =
      { s := if held.plan = q.plan then s else logEngine .urgentLost .urgent { plan := q.plan, step := none } s, reqs := [] } := by
  have ready : s.ready q.plan = true := by simpa [State.ready] using hp
  simp only [judgeRequest, hk, ready, hr, hu, h]
  by_cases same : held.plan = q.plan
  · rw [if_pos same, if_pos same]
    rfl
  · rw [if_neg same, if_neg same]
    rfl

end Ready

end Requests

end Sys2Proof.Machine
end

section
/-! PROOFS. A ramp expiry of a rail with a fault plan (R19, R43 item 4, R135, R136): the cut is handed on, and its request is judged. -/

namespace Sys2Proof.Machine

section Requests

variable {s : State} {r : Rail} {k : FaultKind} {c : RailChan} {q : PlanRequest}

theorem pausing_engine_congr {t : State} {run : Run} (he : t.engine = s.engine) (hs : t.store = s.store) (hn : t.now = s.now) :
    (t.pausing run).engine = (s.pausing run).engine := by
  unfold State.pausing State.pauseMs State.plan
  simp only [he, hs, hn]

/-- Whatever the judgement of a request does, it does aside (R136). -/
theorem judgeRequest_aside (hk : s.pins.kill = false)
    (hpause : (s.plan q.plan).state = .ready → (∀ run, s.engine.run = some run → run.role ≠ .urgent) → s.pauseAt q.plan 0 = true) :
    ∃ v, judgeRequest q { s := s, reqs := [] } = { s := v, reqs := [] } ∧ s.Aside v := by
  by_cases hp : (s.plan q.plan).state = .ready
  · cases hr : s.engine.run with
    | none => exact ⟨_, judgeRequest_idle hk hp hr (hpause hp (by simp [hr])), ⟨rfl, rfl, rfl, rfl, rfl, rfl⟩⟩
    | some run =>
      by_cases hu : run.role = .urgent
      · cases hslot : s.requests.slot with
        | none => exact ⟨_, judgeRequest_stored hk hp hr hu hslot, ⟨rfl, rfl, rfl, rfl, rfl, rfl⟩⟩
        | some held =>
          refine ⟨_, judgeRequest_held hk hp hr hu hslot, ?_⟩
          split
          · exact ⟨rfl, rfl, rfl, rfl, rfl, rfl⟩
          · exact .logEngine _ _ _ _
      · have preempts := judgeRequest_preempts hk hp hr hu (hpause hp (by rw [hr]; rintro _ ⟨⟩; exact hu))
        exact ⟨_, preempts, (preempted_aside s run).trans ⟨rfl, rfl, rfl, rfl, rfl, rfl⟩⟩
  · exact ⟨_, judgeRequest_planMissing hk hp, .logEngine _ _ _ _⟩

/-- A cut that takes no other rail and raises a request, which is judged after the hand-on (R65, R135). -/
theorem finish_cutStep_requests {f : RailStep → RailStep} (hf : f (.of (s.rail r)) = c.cutStep s.now k) (h : (s.cutRail r k c).taken r = 0)
    (hp : c.cfg.faultPlan = some q.plan) (hq : q.rail = r) (hu : s.unawaited r = true) {v : State}
    (hv : judgeRequest q { s := (s.cutRail r k c).told (RailSet.add 0 r), reqs := [] } = { s := v, reqs := [] }) :
    ∃ b : Bool, finish (onRail r f (Delta.of s)) = v.setNotify { v.notify with shed := b } := by
  have committed : onRail r f (Delta.of s) = commit r (c.cutStep s.now k) (Delta.of s) := congrArg (fun e => commit r e (Delta.of s)) hf
  have requests : c.planRequests r = [q] := by
    rw [RailChan.planRequests, hp, ← hq]
    rfl
  have unawaited : ∀ x, RailSet.has (RailSet.add 0 r) x = true → (s.cutRail r k c).unawaited x = true := by
    intro x hx
    obtain rfl : r = x := by simpa [has_add, has_zero] using hx
    exact (unawaited_congr (by rw [cutRail_elsewhere.eq]) (by rw [cutRail_elsewhere.eq]) r).trans hu
  have handed := handOn_of_unawaited (d := { s := s.cutRail r k c, changed := RailSet.add 0 r, reqs := [q], shed := c.cfg.shedMember }) unawaited
  have judged : finishWork (handOn { s := s.cutRail r k c, changed := RailSet.add 0 r, reqs := [q], shed := c.cfg.shedMember }) = v := by
    rw [handed]
    show judgeRequests 16 (judgeRequest q { s := (s.cutRail r k c).told (RailSet.add 0 r), reqs := [] }) = v
    rw [hv]
    rfl
  rw [committed, commit_cutStep_alone h, requests]
  cases hshed : c.cfg.shedMember with
  | true => exact ⟨true, by rw [hshed] at judged; rw [finish, judged]; rfl⟩
  | false => exact ⟨v.notify.shed, by rw [hshed] at judged; rw [finish, judged]; rfl⟩

/-- An engine record of this time that has seen its kind (R150, R151). -/
theorem exists_logEngine (kind : EngineKind) (role : Role) (x : PlanContext) (s : State) :
    ∃ y ∈ (logEngine kind role x s).log.records, y.subject.source = 16 ∧ hasKind y.seen kind.code = true ∧ y.lastTime = s.now :=
  exists_logFault (.engine kind role) (some x) s

theorem preempted_fail (s : State) (run : Run) : (s.preempted run).flag .fail = true := by
  rw [State.flag, State.preempted, logEngine, logFault_notify]
  show ((s.notify.flags ||| BitVec.twoPow 8 4) ||| 0x04).getLsbD 4 = true
  simp

theorem told_changed {x : RailSet} (hx : x ≠ 0) : (s.told x).notify.changed = s.notify.changed ||| x := by
  rw [told_eq, joinedBy_of_ne_zero hx]
  rfl

end Requests

/-- Settles O60: the request is judged on the part that the cut has left, test by test. -/
theorem faultPlanRequestJudged : Obligations.FaultPlanRequestJudged := by
  intro s r p hs ht hplan hchild hk hu hpause
  obtain ⟨c, hc⟩ : ∃ c, c = { s.rail r with rampT := none } := ⟨_, rfl⟩
  obtain ⟨q, hq⟩ : ∃ q : PlanRequest, q = { plan := p, rail := r } := ⟨_, rfl⟩
  obtain ⟨u, hu'⟩ : ∃ u, u = (s.cutRail r .rampTimeout c).told (RailSet.add 0 r) := ⟨_, rfl⟩
  have cfg : c.cfg = (s.rail r).cfg := by rw [hc]
  have cut := cutRail_elsewhere (s := s) (r := r) (k := .rampTimeout) (c := c)
  have toldEq := told_eq (s.cutRail r .rampTimeout c) (RailSet.add 0 r)
  have uStore : u.store = s.store := by rw [hu', toldEq]; exact cut.store
  have uRun : u.engine.run = s.engine.run := by rw [hu', toldEq]; exact (congrArg Engine.run cut.engine :)
  have uTimers : (u.setEngineTimers none none none).engine = (s.setEngineTimers none none none).engine := by
    rw [hu', toldEq]
    exact congrArg (fun e : Engine => { e with quietT := none, stepT := none, holdT := none }) cut.engine
  have uRequests : u.requests = s.requests := by rw [hu', toldEq]; exact cut.requests
  have uBus : u.bus = s.bus := by rw [hu', toldEq]; exact cut.bus
  have uPins : u.pins = s.pins := by rw [hu', toldEq]; exact cut.pins
  have uNow : u.now = s.now := by rw [hu', toldEq]; exact cut.uptime
  have uRails (x : Rail) : u.rail x = (s.cutRail r .rampTimeout c).rail x := by rw [hu', toldEq]; rfl
  have uPlan : u.plan q.plan = s.plan p := by rw [hq, State.plan, uStore]; rfl
  have pause : (u.plan q.plan).state = .ready → (∀ run, u.engine.run = some run → run.role ≠ .urgent) → u.pauseAt q.plan 0 = true := by
    rw [State.pauseAt, uPlan, uRun]
    exact hpause
  obtain ⟨v, judged, aside⟩ := judgeRequest_aside (q := q) (by rw [uPins]; exact hk) pause
  have expired : railRampExpiry s.now (.of (s.rail r)) = c.cutStep s.now .rampTimeout := by
    rw [railRampExpiry_declares hs ht, declareOwn_cuts rfl (fun h => h.2 rfl), hc]
    rfl
  obtain ⟨b, finished⟩ := finish_cutStep_requests (q := q) expired (taken_childless cfg hchild) (by rw [cfg, hplan, hq]) (by rw [hq]) hu (hu' ▸ judged)
  have becomes {w : State} (h : judgeRequest q { s := u, reqs := [] } = { s := w, reqs := [] }) : v = w := congrArg Work.s (judged.symm.trans h)
  have killed : u.pins.kill = false := by rw [uPins]; exact hk
  have some_changed : RailSet.add 0 r ≠ 0 := fun h0 => by
    have own : RailSet.has (RailSet.add 0 r) r = true := by simp [has_add]
    rw [h0] at own
    exact absurd own (by simp)
  have vRails (x : Rail) : v.rail x = (s.cutRail r .rampTimeout c).rail x := (congrArg (fun l => l[x]) aside.rails).trans (uRails x)
  refine ⟨_, congrArg Host.Outcome.next finished, ?_, fun x hx => ?_, ?_, aside.store.trans uStore, aside.bus.trans uBus, aside.pins.trans uPins,
    aside.queue.trans (congrArg RequestUnit.queue uRequests), fun hn => ?_, fun hp => ⟨fun hi => ?_, fun run hr hnu => ?_, fun run hr hur => ?_⟩⟩
  · refine (vRails r).trans ?_
    rw [cutRail_rail, if_pos rfl, hc]
    rfl
  · refine (vRails x).trans ?_
    rw [cutRail_rail, if_neg (Ne.symm hx)]
  · show RailSet.has v.notify.changed r = true
    rw [aside.changed, hu', told_changed some_changed, has_or, has_add, Bool.or_eq_true]
    exact .inr (by simp)
  · obtain rfl := becomes (judgeRequest_planMissing killed (by rw [uPlan]; exact hn))
    refine ⟨(congrArg Engine.run (logFault_engine _ _ _)).trans uRun, (State.SameElsewhere.logFault _ _ u).requests.trans uRequests, ?_⟩
    rw [← uNow]
    exact exists_logEngine _ _ _ u
  · have running : u.engine.run = none := uRun.trans hi
    have ready : (u.plan q.plan).state = .ready := by rw [uPlan]; exact hp
    obtain rfl := becomes (judgeRequest_idle killed ready running (pause ready (by simp [running])))
    refine ⟨?_, uRequests⟩
    rw [← show q.plan = p by rw [hq]]
    exact pausing_engine_congr uTimers uStore uNow
  · have running : u.engine.run = some run := uRun.trans hr
    have ready : (u.plan q.plan).state = .ready := by rw [uPlan]; exact hp
    obtain rfl := becomes (judgeRequest_preempts killed ready running hnu (pause ready (by rw [running]; rintro _ ⟨⟩; exact hnu)))
    refine ⟨?_, (State.SameElsewhere.logFault _ _ (setFlag .fail (u.idleAfter (run.ended .preempted)))).requests.trans uRequests,
      preempted_fail u run, ?_⟩
    · rw [← show q.plan = p by rw [hq]]
      exact pausing_engine_congr (s := s.idleAfter (run.ended .preempted)) (logFault_engine _ _ _) ((preempted_aside u run).store.trans uStore)
        ((logFault_now _ _ _).trans uNow)
    · rw [← uNow]
      exact exists_logEngine _ _ _ (setFlag .fail (u.idleAfter (run.ended .preempted)))
  · have running : u.engine.run = some run := uRun.trans hr
    have ready : (u.plan q.plan).state = .ready := by rw [uPlan]; exact hp
    have held (x : PlanRequest) (hslot : s.requests.slot = some x) :
        v = if x.plan = q.plan then u else logEngine .urgentLost .urgent { plan := q.plan, step := none } u :=
      becomes (judgeRequest_held killed ready running hur (by rw [uRequests]; exact hslot))
    refine ⟨?_, fun hslot => ?_, fun x hslot => ?_, fun x hslot hne => ?_⟩
    · cases hslot : s.requests.slot with
      | none =>
        obtain rfl := becomes (judgeRequest_stored killed ready running hur (by rw [uRequests]; exact hslot))
        exact running
      | some x =>
        obtain rfl := held x hslot
        split
        · exact running
        · exact (congrArg Engine.run (logFault_engine _ _ _)).trans running
    · obtain rfl := becomes (judgeRequest_stored killed ready running hur (by rw [uRequests]; exact hslot))
      rw [← hq, ← uRequests]
      rfl
    · obtain rfl := held x hslot
      split
      · exact uRequests
      · exact (State.SameElsewhere.logFault _ _ u).requests.trans uRequests
    · obtain rfl := held x hslot
      rw [if_neg (by rw [hq]; exact hne), ← uNow]
      exact exists_logEngine _ _ _ u

end Sys2Proof.Machine
end
